-- ==== Sys2Proof/Syntax.lean ====
section
/-! DEFINITION. The commands of 30_encoding.md R92: one constructor per row of spec/opcode_table.json.
LEN and SEGBITS are unsigned counts "taken as written" (R93, R94), so they are numbers; their ranges are checked in
WellFormed.lean (log entry 11). -/

namespace Sys2Proof

inductive Instr where
  /-- NOP, OP 0x0 (44_control.md R242). -/
  | nop
  /-- KEY_LOAD, OP 0x1; LEN is the length of the supplied master key (41_key_schedule.md R166). -/
  | keyLoad (len : Nat)
  /-- ENC_BLOCK, OP 0x2; LEN is the number of meaningful leading bytes of DIN (42_block_transform.md R185). -/
  | encBlock (len : Nat)
  /-- DEC_BLOCK, OP 0x3; LEN is the block length (42_block_transform.md R186). -/
  | decBlock (len : Nat)
  /-- CFB_INIT, OP 0x4; SEGBITS is the segment size in bits (43_cfb.md R212). -/
  | cfbInit (segBits : Nat)
  /-- CFB_ENC_SEG, OP 0x5; LEN is the length of the segment (43_cfb.md R216). -/
  | cfbEncSeg (len : Nat)
  /-- CFB_DEC_SEG, OP 0x6; LEN is the length of the segment (43_cfb.md R217). -/
  | cfbDecSeg (len : Nat)
  /-- CLEAR, OP 0x7 (44_control.md R243). -/
  | clear
deriving DecidableEq, Repr

end Sys2Proof
end

