-- ==== Sys2Proof/WellFormed.lean ====
section
/-! DEFINITION. Which terms of `Instr` are commands: the operand fits its field. A LEN or SEGBITS that fits its field
but lies outside its command's range is well formed: "A LEN outside a command's range is not a decode failure"
(30_encoding.md R94). -/

namespace Sys2Proof

/-- LEN is a 4-bit field, 0..15 (30_encoding.md R94). -/
def lenFits (len : Nat) : Bool := decide (len < 16)

/-- SEGBITS is a 7-bit field, 0..127 (30_encoding.md R93). -/
def segBitsFits (segBits : Nat) : Bool := decide (segBits < 128)

/-- The operand of the command fits its field. -/
def Instr.wellFormed : Instr → Bool
  | .nop => true
  | .keyLoad len => lenFits len
  | .encBlock len => lenFits len
  | .decBlock len => lenFits len
  | .cfbInit segBits => segBitsFits segBits
  | .cfbEncSeg len => lenFits len
  | .cfbDecSeg len => lenFits len
  | .clear => true

end Sys2Proof
end

