-- ==== Sys2Proof/Word.lean ====
section
/-! DEFINITION. The value types of the spec (00_scope.md R16): bytes, 32-bit words, 4-bit status fields, and the
fixed-length byte sequences `Bytes 4` and `Bytes 8`. -/

namespace Sys2Proof

/-- 00_scope.md R16: an unsigned 8-bit value. -/
abbrev Byte := BitVec 8

/-- 00_scope.md R16: an unsigned 32-bit value. -/
abbrev Word := BitVec 32

/-- A 4-bit status field (10_state.md R36, R40, R42). -/
abbrev Nibble := BitVec 4

/-- `Bytes 4` of 00_scope.md R16: a half-block or a subkey word; `b0` is the first byte. -/
structure Bytes4 where
  b0 : Byte
  b1 : Byte
  b2 : Byte
  b3 : Byte
deriving DecidableEq, Repr

/-- `Bytes 8`: a block, key or IV, "logically split into a Left half and Right half of 4 bytes each"
(00_scope.md R6, R7): `left` is bytes 0..3, `right` is bytes 4..7 (20_memory.md R66). -/
structure Bytes8 where
  left : Bytes4
  right : Bytes4
deriving DecidableEq, Repr

/-- The subkey file `W : array 0..5 of Bytes 4` (10_state.md R34). -/
structure SubkeyFile where
  w0 : Bytes4
  w1 : Bytes4
  w2 : Bytes4
  w3 : Bytes4
  w4 : Bytes4
  w5 : Bytes4
deriving DecidableEq, Repr

/-- `zeros(4)` (00_scope.md R18). -/
def Bytes4.zeros : Bytes4 := ⟨0#8, 0#8, 0#8, 0#8⟩

/-- `zeros(8)` (00_scope.md R18). -/
def Bytes8.zeros : Bytes8 := ⟨Bytes4.zeros, Bytes4.zeros⟩

/-- The subkey file at reset: "all 24 bytes 0x00" (10_state.md R34). -/
def SubkeyFile.zeros : SubkeyFile :=
  ⟨Bytes4.zeros, Bytes4.zeros, Bytes4.zeros, Bytes4.zeros, Bytes4.zeros, Bytes4.zeros⟩

end Sys2Proof
end

