-- ==== Sys2Proof/Decode.lean ====
section
/-! DEFINITION. The decoder of 30_encoding.md R91 to R97, total on every 32-bit word and rejecting by name, and the
encoder of R99 (`match | (LEN << 16) | (SEG << 8)`), both over the one table of R95. "A decoder needs nothing but the
word" (R90): the unit of the decoder is the word, not a byte (log entry 8). -/

namespace Sys2Proof

/-- OP, bits [3:0] (30_encoding.md R91). -/
def opField (w : Word) : Nat := (w.extractLsb' 0 4).toNat

/-- SEGBITS, bits [14:8] (30_encoding.md R91, R93). -/
def segBitsField (w : Word) : Nat := (w.extractLsb' 8 7).toNat

/-- LEN, bits [19:16] (30_encoding.md R91, R94). -/
def lenField (w : Word) : Nat := (w.extractLsb' 16 4).toNat

/-- One row of the table of 30_encoding.md R95, with the command its free field makes. -/
structure OpcodeRow where
  pattern : Word
  mask : Word
  make : Word → Instr

/-- `(word & mask) == match` (30_encoding.md R95). -/
def OpcodeRow.fits (r : OpcodeRow) (w : Word) : Bool := (w &&& r.mask) == r.pattern

/-- The table of 30_encoding.md R95, row by row. -/
def opcodeRows : List OpcodeRow :=
  [⟨0x00000000#32, 0xFFFFFFFF#32, fun _ => .nop⟩,
   ⟨0x00000001#32, 0xFFF0FFFF#32, fun w => .keyLoad (lenField w)⟩,
   ⟨0x00000002#32, 0xFFF0FFFF#32, fun w => .encBlock (lenField w)⟩,
   ⟨0x00000003#32, 0xFFF0FFFF#32, fun w => .decBlock (lenField w)⟩,
   ⟨0x00000004#32, 0xFFFF80FF#32, fun w => .cfbInit (segBitsField w)⟩,
   ⟨0x00000005#32, 0xFFF0FFFF#32, fun w => .cfbEncSeg (lenField w)⟩,
   ⟨0x00000006#32, 0xFFF0FFFF#32, fun w => .cfbDecSeg (lenField w)⟩,
   ⟨0x00000007#32, 0xFFFFFFFF#32, fun _ => .clear⟩]

/-- Why a word is no command (60_exceptions.md R264: "a reserved opcode (rule R97) and a nonzero reserved or unused
field (rule R96)"). Both raise ILLEGAL_COMMAND; the names are the model's. -/
inductive IllegalWord where
  /-- OP is 0x8..0xF (30_encoding.md R97). -/
  | reservedOpcode
  /-- A reserved field, or a field the command does not use, is not zero (30_encoding.md R96). -/
  | nonzeroUnusedField
deriving DecidableEq, Repr

/-- 30_encoding.md R95: the command of the first row that matches; a word that matches no row is illegal. -/
def decode (w : Word) : Except IllegalWord Instr :=
  match opcodeRows.find? (fun r => r.fits w) with
  | some r => .ok (r.make w)
  | none => .error (if 8 ≤ opField w then .reservedOpcode else .nonzeroUnusedField)

/-- LEN in place: `LEN << 16` (30_encoding.md R99). -/
def lenBits (len : Nat) : Word := BitVec.ofNat 32 len <<< 16

/-- SEGBITS in place: `SEG << 8` (30_encoding.md R99). -/
def segBits (bits : Nat) : Word := BitVec.ofNat 32 bits <<< 8

/-- The word of a command: `match | (LEN << 16) | (SEG << 8)` of 30_encoding.md R99, an absent field being 0. -/
def encode : Instr → Word
  | .nop => 0x00000000#32
  | .keyLoad len => 0x00000001#32 ||| lenBits len
  | .encBlock len => 0x00000002#32 ||| lenBits len
  | .decBlock len => 0x00000003#32 ||| lenBits len
  | .cfbInit bits => 0x00000004#32 ||| segBits bits
  | .cfbEncSeg len => 0x00000005#32 ||| lenBits len
  | .cfbDecSeg len => 0x00000006#32 ||| lenBits len
  | .clear => 0x00000007#32

/-- The command the decoder reads from a command word whose bits are `w` (the host's interface). A command is one
32-bit word, so there are no further words: the bits above `nbits` are 0. -/
def decodeTableWord (nbits w : Nat) : Option Instr :=
  match decode (BitVec.ofNat 32 (w % 2 ^ nbits)) with
  | .ok i => some i
  | .error _ => none

end Sys2Proof
end

