-- ==== Sys2Proof/Config.lean ====
section
/-! DEFINITION. The implementation parameters: the fixed algorithm parameters of 00_scope.md R6 to R11 as named
constants, and the OPEN platform parameters of R15 as constants without a body. -/

namespace Sys2Proof.Config

/-- 00_scope.md R6. -/
abbrev blockBytes : Nat := 8

/-- 00_scope.md R7. -/
abbrev halfBytes : Nat := 4

/-- 00_scope.md R8. -/
abbrev rounds : Nat := 4

/-- 00_scope.md R9: "`NWORDS = ROUNDS/2 + 4 = 6`". -/
abbrev nwords : Nat := rounds / 2 + 4

/-- 00_scope.md R10. -/
abbrev rot : Nat := 2

/-- 00_scope.md R11. -/
abbrev keyBytes : Nat := 8

/-- 20_memory.md R60: the register window is 128 bytes long. -/
abbrev windowBytes : Nat := 128

/-- `BASE`, OPEN (00_scope.md R15, 20_memory.md R60): the platform's base address of the window. Log entry 7. -/
opaque base : Nat

/-- `LAT_KEY`, OPEN, "at least 1" (70_reset_and_hazards.md R301). Log entry 7. -/
opaque latKey : ℕ+

/-- `LAT_BLOCK`, OPEN, "at least 1" (70_reset_and_hazards.md R301). Log entry 7. -/
opaque latBlock : ℕ+

/-- `LAT_SEG`, OPEN, "at least 1" (70_reset_and_hazards.md R301). Log entry 7. -/
opaque latSeg : ℕ+

/-- `LAT_CTRL`, OPEN, "at least 1" (70_reset_and_hazards.md R301). Log entry 7. -/
opaque latCtrl : ℕ+

end Sys2Proof.Config
end

