-- ==== Sys2Proof/Machine/Bytes.lean ====
section
/-! DEFINITION. The operators on byte sequences of 00_scope.md R18 and R19, with XOR (40_primitives.md R120, R121). -/

namespace Sys2Proof.Machine

/-- `pack32`: "Byte 0 of a 4-byte group is therefore the most significant byte of its word" (00_scope.md R19). -/
def pack32 (b : Bytes4) : Word :=
  (b.b0.setWidth 32 <<< 24) ||| (b.b1.setWidth 32 <<< 16) ||| (b.b2.setWidth 32 <<< 8) ||| b.b3.setWidth 32

/-- `unpack32`, the inverse of `pack32` (00_scope.md R19). -/
def unpack32 (w : Word) : Bytes4 :=
  ⟨w.extractLsb' 24 8, w.extractLsb' 16 8, w.extractLsb' 8 8, w.extractLsb' 0 8⟩

/-- `xor(a, b)` at n = 4 (40_primitives.md R121). -/
def xor4 (a b : Bytes4) : Bytes4 := ⟨a.b0 ^^^ b.b0, a.b1 ^^^ b.b1, a.b2 ^^^ b.b2, a.b3 ^^^ b.b3⟩

/-- `xor(a, b)` on two sequences of equal length, byte by byte (40_primitives.md R121). -/
def xorSeq (a b : List Byte) : List Byte := List.zipWith (· ^^^ ·) a b

/-- The four bytes in order, the first byte first. -/
def list4 (b : Bytes4) : List Byte := [b.b0, b.b1, b.b2, b.b3]

/-- The eight bytes in order, `left` first (00_scope.md R16, 20_memory.md R66). -/
def list8 (b : Bytes8) : List Byte := list4 b.left ++ list4 b.right

/-- `zeros(n)` (00_scope.md R18). -/
def zeros (n : Nat) : List Byte := List.replicate n 0#8

/-- Byte `i` of a sequence; the spec's sequences are always long enough where this is used. -/
def byteAt (l : List Byte) (i : Nat) : Byte := l.getD i 0#8

/-- The `Bytes 8` whose bytes are the first eight of a sequence. -/
def toBytes8 (l : List Byte) : Bytes8 :=
  ⟨⟨byteAt l 0, byteAt l 1, byteAt l 2, byteAt l 3⟩, ⟨byteAt l 4, byteAt l 5, byteAt l 6, byteAt l 7⟩⟩

/-- `take(b, n)` of 00_scope.md R18. -/
def take (b : Bytes8) (n : Nat) : List Byte := (list8 b).take n

/-- `drop(b, n)` of 00_scope.md R18. -/
def drop (b : Bytes8) (n : Nat) : List Byte := (list8 b).drop n

/-- `W[j]` (10_state.md R34). -/
def subkey (w : SubkeyFile) : Fin 6 → Bytes4
  | 0 => w.w0
  | 1 => w.w1
  | 2 => w.w2
  | 3 => w.w3
  | 4 => w.w4
  | 5 => w.w5

end Sys2Proof.Machine
end

