-- ==== Sys2Proof/Machine/Cipher.lean ====
section
/-! DEFINITION. The pure functions of the engine: the byte primitives and round functions (40_primitives.md), the key
schedule (41_key_schedule.md R160 to R163) and the block transform in both directions (42_block_transform.md R180,
R181). -/

namespace Sys2Proof.Machine

/-- `rol8(x, 2)`: `((x << 2) | (x >> 6)) & 0xFF` (40_primitives.md R122; ROT is 00_scope.md R10). -/
def rol2 (x : Byte) : Byte := (x <<< Config.rot) ||| (x >>> (8 - Config.rot))

/-- `S(x1, x2, k) = ROL2((x1 + x2 + k) mod 256)`, `k` one bit (40_primitives.md R123). -/
def sFun (x1 x2 : Byte) (k : Bool) : Byte := rol2 (x1 + x2 + (if k then 1#8 else 0#8))

/-- 40_primitives.md R124. -/
def s0 (x1 x2 : Byte) : Byte := sFun x1 x2 false

/-- 40_primitives.md R125. -/
def s1 (x1 x2 : Byte) : Byte := sFun x1 x2 true

/-- The unkeyed round function F (40_primitives.md R130). -/
def roundF (a : Bytes4) : Bytes4 :=
  let t1 := a.b0 ^^^ a.b1
  let t2 := a.b2 ^^^ a.b3
  let t1' := s1 t1 t2
  let t2' := s0 t2 t1'
  ⟨s0 a.b0 t1', t1', t2', s1 t2' a.b3⟩

/-- The keyed function FK of the key schedule (40_primitives.md R132). -/
def roundFK (a b : Bytes4) : Bytes4 :=
  let t1 := a.b0 ^^^ a.b1
  let t2 := a.b2 ^^^ a.b3
  let u1 := s1 t1 (t2 ^^^ b.b0)
  let u2 := s0 t2 (u1 ^^^ b.b1)
  ⟨s0 a.b0 (u1 ^^^ b.b2), u1, u2, s1 a.b3 (u2 ^^^ b.b3)⟩

/-- `KR1` (41_key_schedule.md R160; the right key half is zero, 00_scope.md R13). -/
def kr1 : Bytes4 := Bytes4.zeros

/-- `KR2` (41_key_schedule.md R160). -/
def kr2 : Bytes4 := Bytes4.zeros

/-- `Q = KR1 xor KR2` (41_key_schedule.md R160). -/
def krQ : Bytes4 := xor4 kr1 kr2

/-- Step 1's right-half term `X = [KR1, Q, KR2][j mod 3]` (41_key_schedule.md R162, R164). -/
def rightTerm (j : Nat) : Bytes4 :=
  match j % 3 with
  | 0 => kr1
  | 1 => krQ
  | _ => kr2

/-- The three working registers of the key schedule (41_key_schedule.md R161): local to KEY_LOAD, no architectural
state (10_state.md R48). -/
structure KeyRegs where
  a : Bytes4
  b : Bytes4
  d : Bytes4
deriving DecidableEq, Repr

/-- 41_key_schedule.md R161. -/
def keyInit (key : Bytes8) : KeyRegs := ⟨key.left, key.right, Bytes4.zeros⟩

/-- The mixing value `M` of iteration `j`: steps 1 and 2 (41_key_schedule.md R162). -/
def mixingValue (j : Nat) (r : KeyRegs) : Bytes4 :=
  let m := xor4 r.b (rightTerm j)
  if 0 < j then xor4 m r.d else m

/-- `W[j]`, the word iteration `j` emits: steps 4 and 5 (41_key_schedule.md R162). -/
def keyWord (j : Nat) (r : KeyRegs) : Bytes4 := roundFK r.a (mixingValue j r)

/-- The registers after iteration `j`: step 3 saves A in D, step 6 swaps A and B (41_key_schedule.md R162). -/
def keyNext (j : Nat) (r : KeyRegs) : KeyRegs := ⟨r.b, keyWord j r, r.a⟩

/-- The registers at the start of iteration `j`. -/
def keyRegsAt (key : Bytes8) : Nat → KeyRegs
  | 0 => keyInit key
  | j + 1 => keyNext j (keyRegsAt key j)

/-- `KeySchedule(K)`: `W[j]` is the word emitted at iteration `j` (41_key_schedule.md R163). -/
def keySchedule (key : Bytes8) : SubkeyFile :=
  ⟨keyWord 0 (keyRegsAt key 0), keyWord 1 (keyRegsAt key 1), keyWord 2 (keyRegsAt key 2),
   keyWord 3 (keyRegsAt key 3), keyWord 4 (keyRegsAt key 4), keyWord 5 (keyRegsAt key 5)⟩

/-- `(L, R) = (R, L)`. -/
def swapHalves (x : Bytes8) : Bytes8 := ⟨x.right, x.left⟩

/-- The whitening of 42_block_transform.md R180: `L xor W[4]`, `R xor W[5]`. -/
def whiten (w : SubkeyFile) (x : Bytes8) : Bytes8 := ⟨xor4 x.left w.w4, xor4 x.right w.w5⟩

/-- The pre-mix `L = L xor R` (42_block_transform.md R180). -/
def preMix (x : Bytes8) : Bytes8 := ⟨xor4 x.left x.right, x.right⟩

/-- The post-mix `R = R xor L` (42_block_transform.md R180). -/
def postMix (x : Bytes8) : Bytes8 := ⟨x.left, xor4 x.right x.left⟩

/-- One Feistel step `L = L xor F(R xor k)` (42_block_transform.md R180). -/
def feistel (k : Bytes4) (x : Bytes8) : Bytes8 := ⟨xor4 x.left (roundF (xor4 x.right k)), x.right⟩

/-- One encryption round: the Feistel step, then the swap (42_block_transform.md R180). -/
def encRound (x : Bytes8) (k : Bytes4) : Bytes8 := swapHalves (feistel k x)

/-- One decryption round: the swap undone, then the Feistel step undone (42_block_transform.md R181). -/
def decRound (x : Bytes8) (k : Bytes4) : Bytes8 := feistel k (swapHalves x)

/-- The round words in the order of the rounds: `W[i]` for `i = 0 to 3` (42_block_transform.md R180). -/
def roundWords (w : SubkeyFile) : List Bytes4 := [w.w0, w.w1, w.w2, w.w3]

/-- `EncryptBlock(P, W)` (42_block_transform.md R180). -/
def encryptBlock (p : Bytes8) (w : SubkeyFile) : Bytes8 :=
  postMix (swapHalves ((roundWords w).foldl encRound (preMix (whiten w p))))

/-- `DecryptBlock(C, W)` (42_block_transform.md R181). -/
def decryptBlock (c : Bytes8) (w : SubkeyFile) : Bytes8 :=
  whiten w (preMix ((roundWords w).reverse.foldl decRound (swapHalves (postMix c))))

/-- `Keystream(FB, W) = EncryptBlock(FB, W)` (43_cfb.md R213). -/
def keystream (fb : Bytes8) (w : SubkeyFile) : Bytes8 := encryptBlock fb w

end Sys2Proof.Machine
end

