-- ==== Sys2Proof/Machine/State.lean ====
section
/-! DEFINITION. What the machine holds (10_state.md R31 to R44), its host side, how a step can stop, and reset. -/

namespace Sys2Proof.Machine

/-- The width of a host access. Only `word` exists on the bus (20_memory.md R61); the others are what R62 refuses. -/
inductive AccessWidth where
  | byte
  | halfword
  | word
  | doubleword
deriving DecidableEq, Repr

/-- What can reach the core from outside: a host access at an offset of the register window (20_memory.md R60), or
reset, "an event outside the command interface" (70_reset_and_hazards.md R290). -/
inductive HostEvent where
  | read (width : AccessWidth) (off : Nat)
  | write (width : AccessWidth) (off : Nat) (v : Word)
  | reset
deriving DecidableEq, Repr

/-- The state of FE4-CFB. The first fourteen fields are the spec's state elements; `pending` and `reads` are the
model's own record of the host side (log entries 1 and 2). ID is a constant (10_state.md R45), not a field. -/
structure State where
  /-- KEY (10_state.md R31). -/
  key : Bytes8
  /-- DIN (10_state.md R32). -/
  din : Bytes8
  /-- DOUT (10_state.md R33). -/
  dout : Bytes8
  /-- W, the subkey file (10_state.md R34). -/
  w : SubkeyFile
  /-- FB, the feedback register (10_state.md R35). -/
  fb : Bytes8
  /-- SEG_BYTES (10_state.md R36; with FB, CFB_ACTIVE and CFB_ENDED the session of 43_cfb.md R210). -/
  segBytes : Nibble
  /-- KEY_VALID (10_state.md R37). -/
  keyValid : Bool
  /-- CFB_ACTIVE (10_state.md R38). -/
  cfbActive : Bool
  /-- CFB_ENDED (10_state.md R39). -/
  cfbEnded : Bool
  /-- ERR_CODE (10_state.md R40). -/
  errCode : Nibble
  /-- ERR, sticky (10_state.md R41). -/
  err : Bool
  /-- OUT_LEN (10_state.md R42). -/
  outLen : Nibble
  /-- BUSY (10_state.md R43). -/
  busy : Bool
  /-- CMD, the command latch (10_state.md R44). -/
  cmd : Word
  /-- DESIGN CHOICE (log entry 1): the events that have not taken effect yet, the oldest first. -/
  pending : List HostEvent
  /-- DESIGN CHOICE (log entry 2): the values returned to the host's reads, the newest first. -/
  reads : List Word
deriving DecidableEq, Repr

/-- Why the machine stops with a fault. The core itself has no traps (60_exceptions.md R260). -/
inductive Fault where
  /-- Raised by a host access at an offset outside the 128-byte window of 20_memory.md R60, which is no address of
  this core. DESIGN CHOICE (log entry 4), safe: the model stops where another unit of the platform would answer. -/
  | accessOutsideWindow
deriving DecidableEq, Repr

/-- Why a step has no meaning. -/
inductive Refusal where
  /-- A command without a meaning in this model, by its mnemonic. Safe. No arm of `exec` answers so. -/
  | notModelled (mnemonic : String)
  /-- Raised by a host access that is not 32 bits wide or whose offset is not a multiple of 4: "The model **refuses**
  it" (20_memory.md R62). Safe. -/
  | malformedAccess
  /-- Raised by a host access other than a read of STATUS while BUSY = 1: "The model **refuses** such an access"
  (70_reset_and_hazards.md R294). Safe. -/
  | accessWhileBusy
deriving DecidableEq, Repr

/-- What a step or a command answers. -/
abbrev Result := Host.Outcome State Fault Refusal

/-- The machine right after reset (70_reset_and_hazards.md R290; 10_state.md R31 to R44): every element at zero.
The host side is empty (DESIGN CHOICE, log entries 1 and 2). -/
def State.reset : State where
  key := Bytes8.zeros
  din := Bytes8.zeros
  dout := Bytes8.zeros
  w := SubkeyFile.zeros
  fb := Bytes8.zeros
  segBytes := 0#4
  keyValid := false
  cfbActive := false
  cfbEnded := false
  errCode := 0#4
  err := false
  outLen := 0#4
  busy := false
  cmd := 0x00000000#32
  pending := []
  reads := []

end Sys2Proof.Machine
end

