-- ==== Sys2Proof/Machine/Flags.lean ====
section
/-! DEFINITION. The error codes of 60_exceptions.md R261 and the STATUS word of 44_control.md R246. -/

namespace Sys2Proof.Machine

/-- The error names of 60_exceptions.md R261. OK (code 0x0) is no error: success writes it (44_control.md R241). -/
inductive ErrCode where
  /-- KEY_LOAD with LEN other than 8 (60_exceptions.md R262). -/
  | invalidKeyLength
  /-- CFB_INIT with a segment size that is not valid (60_exceptions.md R263). -/
  | invalidSegmentSize
  /-- A CMD word that is no command (60_exceptions.md R264). -/
  | illegalCommand
  /-- A LEN outside its command's range (60_exceptions.md R265). -/
  | badLength
  /-- ENC_BLOCK, DEC_BLOCK or CFB_INIT with KEY_VALID = 0 (60_exceptions.md R266). -/
  | keyNotLoaded
  /-- A segment command with CFB_ACTIVE = 0 (60_exceptions.md R267). -/
  | noSession
  /-- A segment command with CFB_ENDED = 1 (60_exceptions.md R268). -/
  | streamEnded
deriving DecidableEq, Repr

/-- The numeric codes of 60_exceptions.md R261; "Codes 0x8 to 0xF are never written" (R269). -/
def errBits : ErrCode → Nibble
  | .invalidKeyLength => 0x1#4
  | .invalidSegmentSize => 0x2#4
  | .illegalCommand => 0x3#4
  | .badLength => 0x4#4
  | .keyNotLoaded => 0x5#4
  | .noSession => 0x6#4
  | .streamEnded => 0x7#4

/-- A one-bit field at bit `n` of a word. -/
def flagAt (b : Bool) (n : Nat) : Word := (BitVec.ofBool b).setWidth 32 <<< n

/-- A four-bit field whose lowest bit is bit `n` of a word. -/
def nibbleAt (v : Nibble) (n : Nat) : Word := v.setWidth 32 <<< n

/-- The STATUS word (44_control.md R246), a view of the state that no host write changes (R247). -/
def statusWord (s : State) : Word :=
  flagAt s.busy 0 ||| flagAt s.keyValid 1 ||| flagAt s.cfbActive 2 ||| flagAt s.cfbEnded 3 ||| flagAt s.err 4 |||
    nibbleAt s.errCode 8 ||| nibbleAt s.outLen 12 ||| nibbleAt s.segBytes 16

end Sys2Proof.Machine
end

