-- ==== Sys2Proof/Machine/Operands.lean ====
section
/-! DEFINITION. The operand forms of the commands: LEN and SEGBITS and their ranges, the padded block, the stripped
length, the segment, and the register window the host reads and writes (20_memory.md R63). -/

namespace Sys2Proof.Machine

/-- `Pad(DIN, n) = take(DIN, n) || zeros(8 - n)` (42_block_transform.md R183). -/
def pad (din : Bytes8) (n : Nat) : Bytes8 := toBytes8 (take din n ++ zeros (Config.blockBytes - n))

/-- The loop of `TrimLen` (42_block_transform.md R184), started at `n`. -/
def trimFrom (b : Bytes8) : Nat → Nat
  | 0 => 0
  | n + 1 => if byteAt (list8 b) n = 0#8 then trimFrom b n else n + 1

/-- `TrimLen(b)` (42_block_transform.md R184). -/
def trimLen (b : Bytes8) : Nat := trimFrom b Config.blockBytes

/-- `ValidSeg(bits)` (43_cfb.md R211). -/
def validSeg (bits : Nat) : Bool := decide (bits % 8 = 0 ∧ 1 ≤ bits / 8 ∧ bits / 8 ≤ Config.blockBytes)

/-- `Shift(FB, n, c) = drop(FB, n) || c` (43_cfb.md R214). -/
def shiftFeedback (fb : Bytes8) (n : Nat) (c : List Byte) : Bytes8 := toBytes8 (drop fb n ++ c)

/-- `xor(take(DIN, n), take(O, n))`, the segment through the byte multiplexer (43_cfb.md R215). -/
def segmentXor (din o : Bytes8) (n : Nat) : List Byte := xorSeq (take din n) (take o n)

/-- `Y || zeros(8 - n)`: the value the multiplexer gives DOUT (43_cfb.md R215). -/
def segmentOut (y : List Byte) (n : Nat) : Bytes8 := toBytes8 (y ++ zeros (Config.blockBytes - n))

/-- The constant of the ID register (10_state.md R45). -/
def idWord : Word := 0x46454134#32

/-- The named registers of the window (20_memory.md R63). -/
inductive Reg where
  | id
  | cmd
  | status
  | key0
  | key1
  | din0
  | din1
  | dout0
  | dout1
  | fb0
  | fb1
  | sk (j : Fin 6)
deriving DecidableEq, Repr

/-- The offset of a register (20_memory.md R63). -/
def regOffset : Reg → Nat
  | .id => 0x00
  | .cmd => 0x04
  | .status => 0x08
  | .key0 => 0x10
  | .key1 => 0x14
  | .din0 => 0x18
  | .din1 => 0x1C
  | .dout0 => 0x20
  | .dout1 => 0x24
  | .fb0 => 0x28
  | .fb1 => 0x2C
  | .sk j => 0x30 + 4 * j.val

/-- The register at an offset, none where the offset is reserved (20_memory.md R63, R64). -/
def regAt (off : Nat) : Option Reg :=
  match off with
  | 0x00 => some .id
  | 0x04 => some .cmd
  | 0x08 => some .status
  | 0x10 => some .key0
  | 0x14 => some .key1
  | 0x18 => some .din0
  | 0x1C => some .din1
  | 0x20 => some .dout0
  | 0x24 => some .dout1
  | 0x28 => some .fb0
  | 0x2C => some .fb1
  | 0x30 => some (.sk 0)
  | 0x34 => some (.sk 1)
  | 0x38 => some (.sk 2)
  | 0x3C => some (.sk 3)
  | 0x40 => some (.sk 4)
  | 0x44 => some (.sk 5)
  | _ => none

/-- The value of a register (44_control.md R245), byte 0 of each word first (20_memory.md R66, R67). -/
def readReg (s : State) : Reg → Word
  | .id => idWord
  | .cmd => s.cmd
  | .status => statusWord s
  | .key0 => pack32 s.key.left
  | .key1 => pack32 s.key.right
  | .din0 => pack32 s.din.left
  | .din1 => pack32 s.din.right
  | .dout0 => pack32 s.dout.left
  | .dout1 => pack32 s.dout.right
  | .fb0 => pack32 s.fb.left
  | .fb1 => pack32 s.fb.right
  | .sk j => pack32 (subkey s.w j)

/-- `BusRead(off)`: a reserved offset reads 0 (44_control.md R245, 20_memory.md R64). -/
def busRead (off : Nat) (s : State) : Word :=
  match regAt off with
  | some r => readReg s r
  | none => 0x00000000#32

/-- `BusWrite(off, v)` at every offset but CMD's (44_control.md R244): the operand registers take the word
(20_memory.md R70); a write to a read-only register or a reserved offset is ignored (R64, R65). The CMD write is
`writeCommand` of Access.lean. -/
def busWrite (off : Nat) (v : Word) (s : State) : State :=
  match regAt off with
  | some .key0 => { s with key := { s.key with left := unpack32 v } }
  | some .key1 => { s with key := { s.key with right := unpack32 v } }
  | some .din0 => { s with din := { s.din with left := unpack32 v } }
  | some .din1 => { s with din := { s.din with right := unpack32 v } }
  | _ => s

/-- The platform address of a window offset, `BASE + off` (00_scope.md R21). -/
def addressOf (off : Nat) : Nat := Config.base + off

/-- The window offset of a platform address, none outside the window (20_memory.md R60). -/
def offsetOf (addr : Nat) : Option Nat :=
  if Config.base ≤ addr ∧ addr < Config.base + Config.windowBytes then some (addr - Config.base) else none

/-- `MemRead(addr, 4)` as the event that reaches this core, none where the address is outside its window
(00_scope.md R21: "Short forms `BusRead(off)` and `BusWrite(off, v)` mean the same"). -/
def memRead (addr : Nat) : Option HostEvent := (offsetOf addr).map fun off => .read .word off

/-- `MemWrite(addr, 4, v)` as the event that reaches this core (00_scope.md R21). -/
def memWrite (addr : Nat) (v : Word) : Option HostEvent := (offsetOf addr).map fun off => .write .word off v

end Sys2Proof.Machine
end

