-- ==== Sys2Proof/Machine/Ops.lean ====
section
/-! DEFINITION. The named updates of the state, the error effect (what this core has in place of taking an exception,
60_exceptions.md R260, R270), the success effect, and the one shape every command has: checks in order, then one
effect (60_exceptions.md R271). -/

namespace Sys2Proof.Machine

/-- `raise Error(CODE)`: `ERR_CODE <- CODE`, `ERR <- 1`, nothing else (60_exceptions.md R270). This is what the core
has for taking an exception; there is no return from it (R275). -/
def State.raise (e : ErrCode) (s : State) : State := { s with errCode := errBits e, err := true }

/-- "On success, every command sets ERR_CODE to 0. It leaves ERR unchanged" (44_control.md R241). -/
def State.succeed (s : State) : State := { s with errCode := 0#4 }

/-- `CMD <- v` (44_control.md R240). -/
def State.latchCommand (v : Word) (s : State) : State := { s with cmd := v }

/-- Every state element at its reset value, the host side as it is: the one definition of CLEAR and of the reset event
(44_control.md R243; 70_reset_and_hazards.md R291: "The model may use one definition for both"). -/
def State.cleared (s : State) : State := { State.reset with pending := s.pending, reads := s.reads }

/-- `W <- w` and `KEY_VALID <- 1` (41_key_schedule.md R166). -/
def State.loadSubkeys (w : SubkeyFile) (s : State) : State := { s with w := w, keyValid := true }

/-- No open session: CFB_ACTIVE, CFB_ENDED and SEG_BYTES become 0 (41_key_schedule.md R166). -/
def State.closeSession (s : State) : State := { s with cfbActive := false, cfbEnded := false, segBytes := 0#4 }

/-- A session opens with IV `iv` and `n`-byte segments (43_cfb.md R212). -/
def State.openSession (iv : Bytes8) (n : Nat) (s : State) : State :=
  { s with fb := iv, segBytes := BitVec.ofNat 4 n, cfbActive := true, cfbEnded := false }

/-- `DOUT <- b` and `OUT_LEN <- n` (10_state.md R42: "Each command that writes DOUT also writes OUT_LEN"). -/
def State.output (b : Bytes8) (n : Nat) (s : State) : State := { s with dout := b, outLen := BitVec.ofNat 4 n }

/-- `FB <- b` (43_cfb.md R216). -/
def State.feedBack (b : Bytes8) (s : State) : State := { s with fb := b }

/-- `if n < SEG_BYTES: CFB_ENDED <- 1` (43_cfb.md R218). -/
def State.endIfPartial (n : Nat) (s : State) : State :=
  { s with cfbEnded := s.cfbEnded || decide (n < s.segBytes.toNat) }

/-- The value of a read goes to the host (log entry 2); nothing else changes (20_memory.md R69). -/
def State.returnRead (v : Word) (s : State) : State := { s with reads := v :: s.reads }

/-- The events still pending (log entry 1). -/
def State.withPending (es : List HostEvent) (s : State) : State := { s with pending := es }

/-- The first check that fails, in order (60_exceptions.md R271: "the first that fails is reported"). A check is the
condition under which it fails and the error it reports. -/
def firstFailure : List (Bool × ErrCode) → Option ErrCode
  | [] => none
  | (fails, e) :: rest => if fails then some e else firstFailure rest

/-- The shape of a command: "A command either succeeds, applying its whole rule, or fails, applying only
`60_exceptions.md` rule R270" (44_control.md R240). -/
def checked (checks : List (Bool × ErrCode)) (effect : State → State) (s : State) : Result :=
  match firstFailure checks with
  | some e => .next (s.raise e)
  | none => .next (effect s).succeed

end Sys2Proof.Machine
end

