-- ==== Sys2Proof/Machine/Block.lean ====
section
/-! DEFINITION. ENC_BLOCK and DEC_BLOCK (42_block_transform.md R185, R186). -/

namespace Sys2Proof.Machine

/-- ENC_BLOCK: `DOUT <- EncryptBlock(Pad(DIN, LEN), W)`, `OUT_LEN <- 8` (42_block_transform.md R185). -/
def execEncBlock (len : Nat) (s : State) : Result :=
  checked [(decide (len < 1 ∨ len > Config.blockBytes), .badLength), (!s.keyValid, .keyNotLoaded)]
    (fun t => t.output (encryptBlock (pad t.din len) t.w) Config.blockBytes) s

/-- DEC_BLOCK: `DOUT <- DecryptBlock(DIN, W)`, `OUT_LEN <- TrimLen(DOUT)` (42_block_transform.md R186). -/
def execDecBlock (len : Nat) (s : State) : Result :=
  checked [(len != Config.blockBytes, .badLength), (!s.keyValid, .keyNotLoaded)]
    (fun t => t.output (decryptBlock t.din t.w) (trimLen (decryptBlock t.din t.w))) s

end Sys2Proof.Machine
end

