-- ==== Sys2Proof/Machine/Cfb.lean ====
section
/-! DEFINITION. CFB_INIT, CFB_ENC_SEG and CFB_DEC_SEG (43_cfb.md R212, R216, R217). -/

namespace Sys2Proof.Machine

/-- CFB_INIT: a session opens with the IV in DIN and the segment size in SEGBITS (43_cfb.md R212). -/
def execCfbInit (bits : Nat) (s : State) : Result :=
  checked [(!validSeg bits, .invalidSegmentSize), (!s.keyValid, .keyNotLoaded)]
    (fun t => t.openSession t.din (bits / 8)) s

/-- The checks of a segment command, in their order (43_cfb.md R216; 60_exceptions.md R271). -/
def segmentChecks (len : Nat) (s : State) : List (Bool × ErrCode) :=
  [(!s.cfbActive, .noSession), (s.cfbEnded, .streamEnded),
   (decide (len < 1 ∨ len > s.segBytes.toNat), .badLength)]

/-- What both segment commands do: DOUT takes the segment XORed with the keystream, the ciphertext segment `c` enters
the feedback register, a partial segment ends the session (43_cfb.md R214, R215, R218). -/
def segmentEffect (n : Nat) (c : State → List Byte) (s : State) : State :=
  (((s.output (segmentOut (segmentXor s.din (keystream s.fb s.w) n) n) n).feedBack
    (shiftFeedback s.fb n (c s))).endIfPartial n)

/-- CFB_ENC_SEG: the ciphertext that enters FB is the result (43_cfb.md R216). -/
def execCfbEncSeg (len : Nat) (s : State) : Result :=
  checked (segmentChecks len s)
    (segmentEffect len (fun t => segmentXor t.din (keystream t.fb t.w) len)) s

/-- CFB_DEC_SEG: "the *ciphertext* enters, not P": the input segment (43_cfb.md R217). -/
def execCfbDecSeg (len : Nat) (s : State) : Result :=
  checked (segmentChecks len s) (segmentEffect len (fun t => take t.din len)) s

end Sys2Proof.Machine
end

