-- ==== Sys2Proof/Machine/Control.lean ====
section
/-! DEFINITION. The control commands NOP and CLEAR (44_control.md R242, R243). -/

namespace Sys2Proof.Machine

/-- NOP: `ERR_CODE <- 0` (44_control.md R242). -/
def execNop (s : State) : Result := checked [] (fun t => t) s

/-- CLEAR: every state element returns to its reset value (44_control.md R243), ERR and CMD among them, so it is the
one success that clears ERR (10_state.md R41; log entry 12). -/
def execClear (s : State) : Result := .next s.cleared

end Sys2Proof.Machine
end

