-- ==== Sys2Proof/Machine/Key.lean ====
section
/-! DEFINITION. KEY_LOAD (41_key_schedule.md R166). -/

namespace Sys2Proof.Machine

/-- KEY_LOAD: the key schedule of KEY into the subkey file; any open session ends (41_key_schedule.md R166). -/
def execKeyLoad (len : Nat) (s : State) : Result :=
  checked [(len != Config.keyBytes, .invalidKeyLength)]
    (fun t => (t.loadSubkeys (keySchedule t.key)).closeSession) s

end Sys2Proof.Machine
end

