-- ==== Sys2Proof/Machine/Dispatch.lean ====
section
/-! DEFINITION. The rule of each command (44_control.md R240). -/

namespace Sys2Proof.Machine

def exec (i : Instr) (s : State) : Host.Outcome State Fault Refusal :=
  match i with
  | .nop => Sys2Proof.Machine.execNop s
  | .keyLoad len => Sys2Proof.Machine.execKeyLoad len s
  | .encBlock len => Sys2Proof.Machine.execEncBlock len s
  | .decBlock len => Sys2Proof.Machine.execDecBlock len s
  | .cfbInit bits => Sys2Proof.Machine.execCfbInit bits s
  | .cfbEncSeg len => Sys2Proof.Machine.execCfbEncSeg len s
  | .cfbDecSeg len => Sys2Proof.Machine.execCfbDecSeg len s
  | .clear => Sys2Proof.Machine.execClear s

end Sys2Proof.Machine
end

