-- ==== Sys2Proof/Machine/Access.lean ====
section
/-! DEFINITION. What one host event does: the command a CMD write triggers (44_control.md R240), a host access
(20_memory.md R60 to R75, 44_control.md R244, R245), reset (70_reset_and_hazards.md R290), and a list of events in
order (20_memory.md R72). -/

namespace Sys2Proof.Machine

/-- A host write of `v` to CMD: `CMD <- v`, decode, execute, or `raise Error(ILLEGAL_COMMAND)` (44_control.md R240). -/
def writeCommand (v : Word) (s : State) : Result :=
  match decode v with
  | .ok i => exec i (s.latchCommand v)
  | .error _ => .next ((s.latchCommand v).raise .illegalCommand)

/-- What stops an access before it reaches a register: an offset outside the window (20_memory.md R60), a width or an
alignment no access has (R62), or BUSY (70_reset_and_hazards.md R294; `statusRead` says that the access is a read of
STATUS). The order is log entry 5. -/
def admitted (width : AccessWidth) (off : Nat) (statusRead : Bool) (s : State) (go : Result) : Result :=
  if Config.windowBytes ≤ off then .fault .accessOutsideWindow
  else if width ≠ .word ∨ off % 4 ≠ 0 then .refused .malformedAccess
  else if s.busy && !statusRead then .refused .accessWhileBusy
  else go

/-- One event takes effect, whole (20_memory.md R72). Offset 0x08 is STATUS, 0x04 is CMD (20_memory.md R63). -/
def perform (e : HostEvent) (s : State) : Result :=
  match e with
  | .reset => .next s.cleared
  | .read width off =>
    admitted width off (off == 0x08) s (.next (s.returnRead (busRead off s)))
  | .write width off v =>
    admitted width off false s
      (if off = 0x04 then writeCommand v s else .next (busWrite off v s))

/-- Events in the order the host issues them, each complete before the next (20_memory.md R72). -/
def runEvents : List HostEvent → State → Result
  | [], s => .next s
  | e :: es, s =>
    match perform e s with
    | .next t => runEvents es t
    | .fault f => .fault f
    | .refused r => .refused r

end Sys2Proof.Machine
end

