-- ==== Sys2Proof/Machine/Step.lean ====
section
/-! DEFINITION. One step: the oldest pending host event takes effect; with none pending the engine waits. -/

namespace Sys2Proof.Machine

/-- The engine "never steps by itself" (10_state.md R30): it takes the oldest pending event, and waits where there is
none (70_reset_and_hazards.md R292; log entry 1). -/
def step (s : State) : Host.Outcome State Fault Refusal :=
  match s.pending with
  | [] => .next s
  | e :: rest => perform e (s.withPending rest)

/-- The state in which the next step runs the command word `w`: the host's write of it to CMD (offset 0x04) is the
oldest pending event, and no command is in progress. Log entry 8. -/
def State.withFetchWord (s : State) (nbits w : Nat) : State :=
  { s with
    busy := false
    pending := .write .word 0x04 (BitVec.ofNat 32 (w % 2 ^ nbits)) :: s.pending }

end Sys2Proof.Machine
end

