-- ==== Sys2Proof/Machine/HostProgram.lean ====
section
/-! DEFINITION. The host programs of the spec: the operations and pseudo-operations of 30_encoding.md R99 and R100 as
lists of host events, and the whole-stream programs of 43_cfb.md R219 and R220 over them. They are no part of the core
(00_scope.md R5): they say how a host drives it. -/

namespace Sys2Proof.Machine

/-- `WR <reg>, <imm32>` (30_encoding.md R99). -/
def hostWr (r : Reg) (v : Word) : List HostEvent := [.write .word (regOffset r) v]

/-- `RD <reg>` (30_encoding.md R99). -/
def hostRd (r : Reg) : List HostEvent := [.read .word (regOffset r)]

/-- `CMD <mnemonic> [LEN=<n>] [SEG=<bits>]` (30_encoding.md R99). -/
def hostCmd (i : Instr) : List HostEvent := hostWr .cmd (encode i)

/-- `POLL`: "In the transaction-level model it completes after one read" (30_encoding.md R99). -/
def hostPoll : List HostEvent := hostRd .status

/-- `SETKEY k` (30_encoding.md R100). -/
def setKey (k : Bytes8) : List HostEvent := hostWr .key0 (pack32 k.left) ++ hostWr .key1 (pack32 k.right)

/-- `LOADKEY k` (30_encoding.md R100). -/
def loadKey (k : Bytes8) : List HostEvent := setKey k ++ hostCmd (.keyLoad 8) ++ hostPoll

/-- `SETDIN v` (30_encoding.md R100). -/
def setDin (v : Bytes8) : List HostEvent := hostWr .din0 (pack32 v.left) ++ hostWr .din1 (pack32 v.right)

/-- `GETDOUT` (30_encoding.md R100). -/
def getDout : List HostEvent := hostRd .dout0 ++ hostRd .dout1

/-- `GETFB` (30_encoding.md R100). -/
def getFb : List HostEvent := hostRd .fb0 ++ hostRd .fb1

/-- `ENC v` (30_encoding.md R100). -/
def encOp (v : Bytes8) : List HostEvent := setDin v ++ hostCmd (.encBlock 8) ++ hostPoll ++ getDout

/-- `DEC v` (30_encoding.md R100). -/
def decOp (v : Bytes8) : List HostEvent := setDin v ++ hostCmd (.decBlock 8) ++ hostPoll ++ getDout

/-- `CFBINIT iv, bits` (30_encoding.md R100). -/
def cfbInitOp (iv : Bytes8) (bits : Nat) : List HostEvent := setDin iv ++ hostCmd (.cfbInit bits) ++ hostPoll

/-- The state after the events where the command they end in succeeded, none where it failed or an access stopped. -/
def afterSuccess (es : List HostEvent) (s : State) : Option State :=
  match runEvents es s with
  | .next t => if t.errCode = 0#4 then some t else none
  | _ => none

/-- The segment loop of 43_cfb.md R219: `n = min(s, N - off)` bytes of the message at a time through the command
`seg`, collecting `take(DOUT, n)`. The first number bounds the count of segments. -/
def streamSegments (seg : Nat → Instr) (segLen : Nat) : Nat → List Byte → State → Option (List Byte)
  | _, [], _ => some []
  | 0, _ :: _, _ => none
  | fuel + 1, p :: ps, s =>
    let n := min segLen (p :: ps).length
    match afterSuccess (setDin (toBytes8 ((p :: ps).take n ++ zeros (8 - n))) ++ hostCmd (seg n)) s with
    | some t =>
      match streamSegments seg segLen fuel ((p :: ps).drop n) t with
      | some out => some (take t.dout n ++ out)
      | none => none
    | none => none

/-- The program of 43_cfb.md R219 with the segment command `seg`; none where the key or the segment size fails ("No
partial results are returned on error"). A `segment_bits` that does not fit the 7-bit field cannot be sent and gives
no result either (log entry 13). -/
def cfbStream (seg : Nat → Instr) (key iv : Bytes8) (msg : List Byte) (bits : Nat) (s : State) :
    Option (List Byte) :=
  if bits < 128 then
    match afterSuccess (setKey key ++ hostCmd (.keyLoad 8)) s with
    | some s1 =>
      match afterSuccess (setDin iv ++ hostCmd (.cfbInit bits)) s1 with
      | some s2 => streamSegments seg (bits / 8) msg.length msg s2
      | none => none
    | none => none
  else none

/-- `cfb_encrypt(key, iv, plaintext, segment_bits)` on a core in state `s` (43_cfb.md R219). -/
def cfbEncrypt (key iv : Bytes8) (plain : List Byte) (bits : Nat) (s : State) : Option (List Byte) :=
  cfbStream .cfbEncSeg key iv plain bits s

/-- `cfb_decrypt(key, iv, ciphertext, segment_bits)` on a core in state `s` (43_cfb.md R220). -/
def cfbDecrypt (key iv : Bytes8) (cipher : List Byte) (bits : Nat) (s : State) : Option (List Byte) :=
  cfbStream .cfbDecSeg key iv cipher bits s

end Sys2Proof.Machine
end

