-- ==== Sys2Proof/Machine/Timing.lean ====
section
/-! DEFINITION. Which OPEN latency a command has on a cycle-level implementation (70_reset_and_hazards.md R301). "No rule
of this spec depends on time": no step of the model uses this file. -/

namespace Sys2Proof.Machine

/-- The latency of a command that succeeds (70_reset_and_hazards.md R301). -/
def latencyOf : Instr → ℕ+
  | .nop => Config.latCtrl
  | .keyLoad _ => Config.latKey
  | .encBlock _ => Config.latBlock
  | .decBlock _ => Config.latBlock
  | .cfbInit _ => Config.latCtrl
  | .cfbEncSeg _ => Config.latSeg
  | .cfbDecSeg _ => Config.latSeg
  | .clear => Config.latCtrl

/-- The latency of the command that a write of `v` to CMD triggers in state `s`: LAT_CTRL also for "every failed
command" (70_reset_and_hazards.md R301). A command failed when it leaves ERR_CODE at another value than 0. -/
def commandLatency (v : Word) (s : State) : ℕ+ :=
  match decode v, writeCommand v s with
  | .ok i, .next t => if t.errCode = 0#4 then latencyOf i else Config.latCtrl
  | _, _ => Config.latCtrl

end Sys2Proof.Machine
end

