-- ==== Sys2Proof/Safety.lean ====
section
/-! DEFINITION. What counts as a safe run: the invariants of 10_state.md R46 and R36 to R42, and the host's obligations
(20_memory.md R61, R62; 70_reset_and_hazards.md R294). -/

namespace Sys2Proof.Safety

open Sys2Proof.Machine

/-- The invariants of 10_state.md R46, with R36's range of SEG_BYTES ("and otherwise 1..8"). -/
structure EngineInv (s : State) : Prop where
  /-- "`SEG_BYTES = 0` if and only if `CFB_ACTIVE = 0`". -/
  seg_zero_iff : s.segBytes = 0#4 ↔ s.cfbActive = false
  /-- R36: SEG_BYTES is at most 8. -/
  seg_le : s.segBytes.toNat ≤ 8
  /-- "`CFB_ENDED = 1` implies `CFB_ACTIVE = 1`". -/
  ended_active : s.cfbEnded = true → s.cfbActive = true
  /-- "`CFB_ACTIVE = 1` implies `KEY_VALID = 1`". -/
  active_key : s.cfbActive = true → s.keyValid = true
  /-- "`OUT_LEN ≤ 8`". -/
  out_le : s.outLen.toNat ≤ 8
  /-- "`ERR_CODE ∈ 0..7`". -/
  err_le : s.errCode.toNat ≤ 7
  /-- "`BUSY = 0` between commands". -/
  idle : s.busy = false

/-- What KEY_VALID says of W (10_state.md R37: "1 when W holds the key schedule of a master key"; R34: without a loaded
key W is as reset leaves it). -/
def SubkeysOfAKey (s : State) : Prop :=
  (s.keyValid = true → ∃ k : Bytes8, s.w = keySchedule k) ∧ (s.keyValid = false → s.w = SubkeyFile.zeros)

/-- The bytes of DOUT past OUT_LEN are zero: DOUT and OUT_LEN are written together (10_state.md R42), and the unused
bytes are 0x00 (43_cfb.md R215) or the stripped ones (42_block_transform.md R184). -/
def OutputPadded (s : State) : Prop := ∀ i, s.outLen.toNat ≤ i → i < 8 → byteAt (list8 s.dout) i = 0#8

/-- An access the host may make (20_memory.md R61, R62) in a core that is not busy (70_reset_and_hazards.md R294). -/
def eventAllowed : HostEvent → Bool
  | .reset => true
  | .read width off => decide (width = .word ∧ off % 4 = 0 ∧ off < Config.windowBytes)
  | .write width off _ => decide (width = .word ∧ off % 4 = 0 ∧ off < Config.windowBytes)

/-- A host that keeps its obligations: every pending event is allowed. -/
def hostBehaves (s : State) : Bool := s.pending.all eventAllowed

/-- The event that the next step takes is a reset, or a write of the CLEAR word to CMD. -/
def nextClears (s : State) : Prop :=
  ∃ rest, s.pending = .reset :: rest ∨ s.pending = .write .word 0x04 0x00000007#32 :: rest

/-- The next step is a CMD write of a word that decodes to `i`. -/
def nextCommand (i : Instr) (s : State) : Prop :=
  ∃ v rest, s.pending = .write .word 0x04 v :: rest ∧ decode v = .ok i

end Sys2Proof.Safety
end

