-- ==== Sys2Proof/Certificates/Slice0/Obligations.lean ====
section
/-! DEFINITION. The statements for the provers. A command's statement gives the whole next state, so every field it does
not name is unchanged; FE4-CFB has no memory behind its registers (10_state.md R47, 20_memory.md R60). -/

open Sys2Proof Sys2Proof.Machine Sys2Proof.Safety

/-! Command encoding (30_encoding.md). -/

/-- R101: the canonical words, each with its command, in both directions. -/
def Obligations.CanonicalWordsDecode : Prop :=
  ∀ p ∈ ([(.nop, 0x00000000#32), (.keyLoad 8, 0x00080001#32), (.decBlock 8, 0x00080003#32),
      (.cfbInit 8, 0x00000804#32), (.cfbInit 16, 0x00001004#32), (.cfbInit 24, 0x00001804#32),
      (.cfbInit 32, 0x00002004#32), (.cfbInit 40, 0x00002804#32), (.cfbInit 48, 0x00003004#32),
      (.cfbInit 56, 0x00003804#32), (.cfbInit 64, 0x00004004#32), (.clear, 0x00000007#32)] ++
      (List.range 8).flatMap fun k =>
        [(.encBlock (k + 1), BitVec.ofNat 32 ((k + 1) * 0x10000 + 0x2)),
         (.cfbEncSeg (k + 1), BitVec.ofNat 32 ((k + 1) * 0x10000 + 0x5)),
         (.cfbDecSeg (k + 1), BitVec.ofNat 32 ((k + 1) * 0x10000 + 0x6))] : List (Instr × Word)),
    decode p.2 = .ok p.1 ∧ encode p.1 = p.2

/-- R91, R93, R94, R99: decoding the word of a well-formed command gives the command back, for every operand its field
admits. -/
def Obligations.DecodeEncodeRoundTrip : Prop :=
  ∀ i : Instr, i.wellFormed = true → decode (encode i) = .ok i

/-- R95, R96: a word that decodes is exactly the word of the command it decodes to, and that command is well formed, so
the decoder drops no bit. -/
def Obligations.EncodeDecodeRoundTrip : Prop :=
  ∀ (w : Word) (i : Instr), decode w = .ok i → i.wellFormed = true ∧ encode i = w

/-- R95: each row's match and mask, the field it leaves free, the illegal words, and that no two rows match one word. -/
def Obligations.OpcodeTableMatchesWords : Prop :=
  ∀ w : Word,
    (decode w = .ok .nop ↔ w &&& 0xFFFFFFFF#32 = 0x00000000#32) ∧
    (∀ n, decode w = .ok (.keyLoad n) ↔ w &&& 0xFFF0FFFF#32 = 0x00000001#32 ∧ n = (w >>> 16 &&& 0xF#32).toNat) ∧
    (∀ n, decode w = .ok (.encBlock n) ↔ w &&& 0xFFF0FFFF#32 = 0x00000002#32 ∧ n = (w >>> 16 &&& 0xF#32).toNat) ∧
    (∀ n, decode w = .ok (.decBlock n) ↔ w &&& 0xFFF0FFFF#32 = 0x00000003#32 ∧ n = (w >>> 16 &&& 0xF#32).toNat) ∧
    (∀ n, decode w = .ok (.cfbInit n) ↔ w &&& 0xFFFF80FF#32 = 0x00000004#32 ∧ n = (w >>> 8 &&& 0x7F#32).toNat) ∧
    (∀ n, decode w = .ok (.cfbEncSeg n) ↔ w &&& 0xFFF0FFFF#32 = 0x00000005#32 ∧ n = (w >>> 16 &&& 0xF#32).toNat) ∧
    (∀ n, decode w = .ok (.cfbDecSeg n) ↔ w &&& 0xFFF0FFFF#32 = 0x00000006#32 ∧ n = (w >>> 16 &&& 0xF#32).toNat) ∧
    (decode w = .ok .clear ↔ w &&& 0xFFFFFFFF#32 = 0x00000007#32) ∧
    ∀ rows : List (Word × Word),
      rows = [(0x00000000#32, 0xFFFFFFFF#32), (0x00000001#32, 0xFFF0FFFF#32), (0x00000002#32, 0xFFF0FFFF#32),
        (0x00000003#32, 0xFFF0FFFF#32), (0x00000004#32, 0xFFFF80FF#32), (0x00000005#32, 0xFFF0FFFF#32),
        (0x00000006#32, 0xFFF0FFFF#32), (0x00000007#32, 0xFFFFFFFF#32)] →
      (∀ r ∈ rows, ∀ q ∈ rows, w &&& r.2 = r.1 → w &&& q.2 = q.1 → r = q) ∧
      ((∀ r ∈ rows, w &&& r.2 ≠ r.1) →
        ∀ s : State, writeCommand w s = .next { s with cmd := w, errCode := 0x3#4, err := true })

/-- R96, R97: a CMD word with a reserved opcode, or with a nonzero reserved or unused field, reports
ILLEGAL_COMMAND (code 3), changes nothing else, and stays readable in CMD. -/
def Obligations.IllegalWordsRaise : Prop :=
  (∀ (s : State) (w : Word),
    (8 ≤ (w.extractLsb' 0 4).toNat ∨ w.extractLsb' 4 4 ≠ 0#4 ∨ w.extractLsb' 15 1 ≠ 0#1 ∨
      w.extractLsb' 20 12 ≠ 0#12 ∨
      (w.extractLsb' 0 4 ≠ 4#4 ∧ w.extractLsb' 8 7 ≠ 0#7) ∨
      ((w.extractLsb' 0 4 = 0#4 ∨ w.extractLsb' 0 4 = 4#4 ∨ w.extractLsb' 0 4 = 7#4) ∧
        w.extractLsb' 16 4 ≠ 0#4)) →
    ∃ t, writeCommand w s = .next t ∧ busRead 0x04 t = w ∧
      t = { s with cmd := w, errCode := 0x3#4, err := true }) ∧
  (∃ r, decode 0x00000014#32 = .error r) ∧ (∃ r, decode 0x00080004#32 = .error r)

/-! Steps and host accesses (10_state.md R30, 20_memory.md, 44_control.md R240). -/

/-- R240: a CMD write latches its word and runs the command it decodes to, or raises ILLEGAL_COMMAND. The access has
left the list of pending events (log entry 1). -/
def Obligations.StepRunsDecodedCommand : Prop :=
  ∀ (s : State) (v : Word) (rest : List HostEvent),
    s.busy = false → s.pending = .write .word 0x04 v :: rest →
    (∀ i, decode v = .ok i → step s = exec i { s with pending := rest, cmd := v }) ∧
    ((∀ i, decode v ≠ .ok i) →
      step s = .next { s with pending := rest, cmd := v, errCode := 0x3#4, err := true })

/-- R72, R30, R292: as many steps as there are host events perform them one at a time, in the host's order; what comes
after them stays pending; with no event the engine waits. That the host's events are a list in State, and that a step
of the waiting engine answers the same state, is the model's choice (log entry 1). -/
def Obligations.AccessesTakeEffectInOrder : Prop :=
  (∀ (es : List HostEvent) (s : State),
    Sys2Proof.core.run es.length { s with pending := es ++ s.pending } = runEvents es s) ∧
  (∀ s : State, s.pending = [] → step s = .next s)

/-- R62: an access of the window that is not 32 bits wide, or whose offset is not a multiple of 4, is refused. -/
def Obligations.MalformedAccessRefused : Prop :=
  ∀ (s : State) (rest : List HostEvent) (width : AccessWidth) (off : Nat),
    off < 128 → (width ≠ .word ∨ off % 4 ≠ 0) →
    (s.pending = .read width off :: rest ∨ ∃ v, s.pending = .write width off v :: rest) →
    step s = .refused .malformedAccess

/-- R294: while BUSY = 1 a read of STATUS goes on, and every other access of the window is refused. -/
def Obligations.BusyAdmitsOnlyStatusReads : Prop :=
  ∀ (s : State) (rest : List HostEvent), s.busy = true →
    (s.pending = .read .word 0x08 :: rest →
      step s = .next { s with pending := rest, reads := statusWord s :: s.reads }) ∧
    (∀ off, off % 4 = 0 → off < 128 → off ≠ 0x08 → s.pending = .read .word off :: rest →
      step s = .refused .accessWhileBusy) ∧
    (∀ off v, off % 4 = 0 → off < 128 → s.pending = .write .word off v :: rest →
      step s = .refused .accessWhileBusy)

/-- R15, R21, R60: for every BASE, the platform addresses of the window are `BASE + off` for the 128 offsets, and no
other address reaches this core. That an event outside the window faults is the model's choice (log entry 4). -/
def Obligations.WindowAddressesReachTheCore : Prop :=
  (∀ off, off < 128 → memRead (addressOf off) = some (.read .word off) ∧
    ∀ v, memWrite (addressOf off) v = some (.write .word off v)) ∧
  (∀ a, a < Config.base ∨ Config.base + 128 ≤ a → memRead a = none ∧ ∀ v, memWrite a v = none) ∧
  (∀ (s : State) (rest : List HostEvent) (width : AccessWidth) (off : Nat), 128 ≤ off →
    (s.pending = .read width off :: rest ∨ ∃ v, s.pending = .write width off v :: rest) →
    step s = .fault .accessOutsideWindow)

/-- R245, R69, R64's read: what every offset reads, and that a read changes no state but hands the value to the
host (`reads`, log entry 2). -/
def Obligations.RegisterMapReads : Prop :=
  ∀ s : State,
    busRead 0x00 s = 0x46454134#32 ∧ busRead 0x04 s = s.cmd ∧ busRead 0x08 s = statusWord s ∧
    busRead 0x10 s = pack32 s.key.left ∧ busRead 0x14 s = pack32 s.key.right ∧
    busRead 0x18 s = pack32 s.din.left ∧ busRead 0x1C s = pack32 s.din.right ∧
    busRead 0x20 s = pack32 s.dout.left ∧ busRead 0x24 s = pack32 s.dout.right ∧
    busRead 0x28 s = pack32 s.fb.left ∧ busRead 0x2C s = pack32 s.fb.right ∧
    (∀ j : Fin 6, busRead (0x30 + 4 * j.val) s = pack32 (subkey s.w j)) ∧
    (∀ off, off % 4 = 0 → off = 0x0C ∨ 0x48 ≤ off → off < 128 → busRead off s = 0x00000000#32) ∧
    (∀ off, off % 4 = 0 → off < 128 → s.busy = false →
      perform (.read .word off) s = .next { s with reads := busRead off s :: s.reads })

/-- R244: the effect of a write at every offset. A write other than CMD's raises no error and leaves ERR_CODE. -/
def Obligations.RegisterMapWrites : Prop :=
  ∀ (s : State) (off : Nat) (v : Word), off % 4 = 0 → off < 128 → s.busy = false →
    (off = 0x10 → perform (.write .word off v) s = .next { s with key := ⟨unpack32 v, s.key.right⟩ }) ∧
    (off = 0x14 → perform (.write .word off v) s = .next { s with key := ⟨s.key.left, unpack32 v⟩ }) ∧
    (off = 0x18 → perform (.write .word off v) s = .next { s with din := ⟨unpack32 v, s.din.right⟩ }) ∧
    (off = 0x1C → perform (.write .word off v) s = .next { s with din := ⟨s.din.left, unpack32 v⟩ }) ∧
    (off = 0x04 → perform (.write .word off v) s = writeCommand v s) ∧
    (off ≠ 0x10 → off ≠ 0x14 → off ≠ 0x18 → off ≠ 0x1C → off ≠ 0x04 →
      perform (.write .word off v) s = .next s)

/-- R71, R297 (with R244, R245): an operand register reads back the word last written to it, and no other register of
the window changes, so the other half of a 64-bit value stays as it was. -/
def Obligations.OperandRegistersReadBack : Prop :=
  ∀ (s : State) (v : Word) (off : Nat), off = 0x10 ∨ off = 0x14 ∨ off = 0x18 ∨ off = 0x1C →
    busRead off (busWrite off v s) = v ∧
    ∀ other, other ≠ off → busRead other (busWrite off v s) = busRead other s

/-- R19: `pack32` puts byte 0 in the most significant place, and `unpack32` is its inverse. -/
def Obligations.PackAndUnpackAreInverse : Prop :=
  (∀ b : Bytes4, (pack32 b).toNat =
    b.b0.toNat * 2 ^ 24 + b.b1.toNat * 2 ^ 16 + b.b2.toNat * 2 ^ 8 + b.b3.toNat) ∧
  (∀ w : Word, unpack32 w =
    ⟨w.extractLsb' 24 8, w.extractLsb' 16 8, w.extractLsb' 8 8, w.extractLsb' 0 8⟩) ∧
  (∀ b : Bytes4, unpack32 (pack32 b) = b) ∧ (∀ w : Word, pack32 (unpack32 w) = w)

/-- R246: every field of STATUS stands at its bits, the reserved bits read 0, and the rule's three examples. -/
def Obligations.StatusWordLayout : Prop :=
  (∀ s : State,
    (statusWord s).extractLsb' 0 1 = BitVec.ofBool s.busy ∧
    (statusWord s).extractLsb' 1 1 = BitVec.ofBool s.keyValid ∧
    (statusWord s).extractLsb' 2 1 = BitVec.ofBool s.cfbActive ∧
    (statusWord s).extractLsb' 3 1 = BitVec.ofBool s.cfbEnded ∧
    (statusWord s).extractLsb' 4 1 = BitVec.ofBool s.err ∧
    (statusWord s).extractLsb' 5 3 = 0#3 ∧
    (statusWord s).extractLsb' 8 4 = s.errCode ∧
    (statusWord s).extractLsb' 12 4 = s.outLen ∧
    (statusWord s).extractLsb' 16 4 = s.segBytes ∧
    (statusWord s).extractLsb' 20 12 = 0#12) ∧
  statusWord State.reset = 0x00000000#32 ∧
  (∃ t1 t2 t3, exec (.keyLoad 8) State.reset = .next t1 ∧ statusWord t1 = 0x00000002#32 ∧
    exec (.cfbInit 64) t1 = .next t2 ∧ exec (.cfbEncSeg 8) t2 = .next t3 ∧ statusWord t3 = 0x00088006#32)

/-! Reset (70_reset_and_hazards.md). -/

/-- R290: the reset event sets every state element to its reset value, from any state; then STATUS reads 0 and ID its
constant; the reset state is such a state. -/
def Obligations.ResetSetsEveryElement : Prop :=
  (∀ s : State, ∃ t, perform .reset s = .next t ∧
      t.key = Bytes8.zeros ∧ t.din = Bytes8.zeros ∧ t.dout = Bytes8.zeros ∧ t.fb = Bytes8.zeros ∧
      (∀ j, subkey t.w j = Bytes4.zeros) ∧ t.segBytes = 0#4 ∧ t.errCode = 0#4 ∧ t.outLen = 0#4 ∧
      t.keyValid = false ∧ t.cfbActive = false ∧ t.cfbEnded = false ∧ t.err = false ∧ t.busy = false ∧
      t.cmd = 0x00000000#32 ∧ busRead 0x08 t = 0x00000000#32 ∧ busRead 0x00 t = 0x46454134#32) ∧
  perform .reset State.reset = .next State.reset

/-- R243, R291: CLEAR has the same effect as reset on every state element; every register but ID then reads 0; its word
is exactly 0x00000007, and any other word with OP = 7 clears nothing. That both leave `pending` and `reads` as they are
is the model's choice (log entry 3). -/
def Obligations.ClearEqualsReset : Prop :=
  (∀ s : State, ∃ t, exec .clear s = .next t ∧ perform .reset s = .next t ∧
    t.key = Bytes8.zeros ∧ t.din = Bytes8.zeros ∧ t.dout = Bytes8.zeros ∧ t.fb = Bytes8.zeros ∧
    t.w = SubkeyFile.zeros ∧ t.segBytes = 0#4 ∧ t.keyValid = false ∧ t.cfbActive = false ∧
    t.cfbEnded = false ∧ t.err = false ∧ t.errCode = 0#4 ∧ t.outLen = 0#4 ∧ t.busy = false ∧
    t.cmd = 0x00000000#32 ∧ t.pending = s.pending ∧ t.reads = s.reads ∧
    ∀ off, off ≠ 0x00 → busRead off t = 0x00000000#32) ∧
  (∀ w : Word, decode w = .ok .clear ↔ w = 0x00000007#32) ∧
  (∀ (w : Word) (s : State), w.extractLsb' 0 4 = 7#4 → w ≠ 0x00000007#32 →
    writeCommand w s = .next { s with cmd := w, errCode := 0x3#4, err := true })

/-! Byte primitives and round functions (40_primitives.md). -/

/-- R122: where each bit goes, the laws of ROL2, and the corner cases. -/
def Obligations.Rol2RotatesByTwo : Prop :=
  (∀ x : Byte, (rol2 x).extractLsb' 2 6 = x.extractLsb' 0 6 ∧ (rol2 x).extractLsb' 0 2 = x.extractLsb' 6 2 ∧
    rol2 (rol2 (rol2 (rol2 x))) = x) ∧
  Function.Bijective rol2 ∧ rol2 0x00#8 = 0x00#8 ∧ rol2 0xFF#8 = 0xFF#8 ∧ rol2 0x80#8 = 0x02#8 ∧
  rol2 0x40#8 = 0x01#8 ∧ rol2 0xC0#8 = 0x03#8 ∧ rol2 0x01#8 = 0x04#8

/-- R123, R124, R125: S is ROL2 of the exact sum reduced modulo 256; S0 and S1 are its two cases; the corner cases and
examples. -/
def Obligations.SFunctionRotatesTheSum : Prop :=
  (∀ (x1 x2 : Byte) (k : Bool),
    sFun x1 x2 k = rol2 (BitVec.ofNat 8 ((x1.toNat + x2.toNat + k.toNat) % 256)) ∧
    s0 x1 x2 = sFun x1 x2 false ∧ s1 x1 x2 = sFun x1 x2 true) ∧
  sFun 0xFF#8 0x01#8 false = 0x00#8 ∧ sFun 0xFF#8 0x00#8 true = 0x00#8 ∧ sFun 0xFF#8 0xFF#8 true = 0xFF#8 ∧
  sFun 0x12#8 0x34#8 false = 0x19#8 ∧ s0 0x80#8 0x00#8 = 0x02#8 ∧ s1 0x00#8 0x00#8 = 0x04#8

/-- R127: S is symmetric, S1 is S0 one higher, and S is a bijection of its first argument. -/
def Obligations.SFunctionLaws : Prop :=
  (∀ (x1 x2 : Byte) (k : Bool), sFun x1 x2 k = sFun x2 x1 k) ∧
  (∀ x1 x2 : Byte, s1 x1 x2 = s0 x1 (x2 + 1#8)) ∧
  (∀ (x2 : Byte) (k : Bool), Function.Bijective fun x1 => sFun x1 x2 k)

/-- R126: the printed 256-entry table computes S, for all inputs. -/
def Obligations.LutComputesTheSFunction : Prop :=
  rol2Lut.length = 256 ∧ (∀ v : Byte, byteAt rol2Lut v.toNat = rol2 v) ∧
  ∀ (x1 x2 : Byte) (k : Bool), sFromLut x1 x2 k = sFun x1 x2 k

/-- R130, R132: the stages of F and FK, byte by byte, their corner cases and examples; and that F, so computed, is a
bijection on 4-byte values, which a remark of R130 denies (log entry 14). -/
def Obligations.RoundFunctionStages : Prop :=
  (∀ a0 a1 a2 a3 t1 t2 : Byte, t1 = s1 (a0 ^^^ a1) (a2 ^^^ a3) → t2 = s0 (a2 ^^^ a3) t1 →
    roundF ⟨a0, a1, a2, a3⟩ = ⟨s0 a0 t1, t1, t2, s1 t2 a3⟩) ∧
  (∀ a0 a1 a2 a3 b0 b1 b2 b3 u1 u2 : Byte,
    u1 = s1 (a0 ^^^ a1) ((a2 ^^^ a3) ^^^ b0) → u2 = s0 (a2 ^^^ a3) (u1 ^^^ b1) →
    roundFK ⟨a0, a1, a2, a3⟩ ⟨b0, b1, b2, b3⟩ = ⟨s0 a0 (u1 ^^^ b2), u1, u2, s1 a3 (u2 ^^^ b3)⟩) ∧
  Function.Bijective roundF ∧
  roundF (unpack32 0x00000000#32) = unpack32 0x10041044#32 ∧
  roundF (unpack32 0xFFFFFFFF#32) = unpack32 0x0C041040#32 ∧
  roundF (unpack32 0x01020304#32) = unpack32 0xB42CCC47#32 ∧
  roundFK (unpack32 0x00000000#32) (unpack32 0x00000000#32) = unpack32 0x10041044#32 ∧
  roundFK (unpack32 0xFFFFFFFF#32) (unpack32 0xFFFFFFFF#32) = unpack32 0xFB00FF00#32 ∧
  roundFK (unpack32 0x00000000#32) (unpack32 0xFFFFFFFF#32) = unpack32 0xFF00FF04#32 ∧
  roundFK (unpack32 0x01234567#32) (unpack32 0x89ABCDEF#32) = unpack32 0xDF3BCA36#32

/-- R133: F is FK with a zero mixing value. -/
def Obligations.RoundFIsKeyedByZero : Prop :=
  ∀ a : Bytes4, roundF a = roundFK a ⟨0x00#8, 0x00#8, 0x00#8, 0x00#8⟩

/-! Key schedule (41_key_schedule.md). -/

/-- R165: the closed form of the key schedule, with its sequences A, B and D. -/
def Obligations.KeyScheduleClosedForm : Prop :=
  ∀ (K : Bytes8) (W : SubkeyFile), W = keySchedule K →
    (∃ A B D : Nat → Bytes4, A 0 = K.left ∧ B 0 = K.right ∧ D 0 = Bytes4.zeros ∧
      ∀ j : Fin 6, subkey W j = roundFK (A j) (xor4 (B j) (D j)) ∧
        A (j + 1) = B j ∧ B (j + 1) = subkey W j ∧ D (j + 1) = A j) ∧
    W.w0 = roundFK K.left K.right ∧
    W.w1 = roundFK K.right (xor4 W.w0 K.left) ∧
    W.w2 = roundFK W.w0 (xor4 W.w1 K.right) ∧
    W.w3 = roundFK W.w1 (xor4 W.w2 W.w0) ∧
    W.w4 = roundFK W.w2 (xor4 W.w3 W.w1) ∧
    W.w5 = roundFK W.w3 (xor4 W.w4 W.w2)

/-- R166: KEY_LOAD, its error, its word, its corner cases and its example. -/
def Obligations.KeyLoadResult : Prop :=
  (∀ s : State, exec (.keyLoad 8) s = .next { s with
    w := keySchedule s.key, keyValid := true, cfbActive := false, cfbEnded := false, segBytes := 0#4,
    errCode := 0#4 }) ∧
  (∀ (s : State) (len : Nat), len ≠ 8 →
    exec (.keyLoad len) s = .next { s with errCode := 0x1#4, err := true }) ∧
  encode (.keyLoad 8) = 0x00080001#32 ∧
  (∀ n, n < 16 → encode (.keyLoad n) = BitVec.ofNat 32 (n * 0x10000 + 0x1)) ∧
  keySchedule Bytes8.zeros = ⟨unpack32 0x10041044#32, unpack32 0x51440119#32, unpack32 0xE5680281#32,
    unpack32 0xBD0CE1F8#32, unpack32 0xF3F709A9#32, unpack32 0x2707C69F#32⟩ ∧
  (∀ s t : State, exec (.keyLoad 8) s = .next t → ∃ u, exec (.keyLoad 8) t = .next u ∧ u.w = t.w) ∧
  (∀ (s t : State) (len : Nat), exec (.keyLoad 8) s = .next t →
    exec (.cfbEncSeg len) t = .next { t with errCode := 0x6#4, err := true } ∧
    exec (.cfbDecSeg len) t = .next { t with errCode := 0x6#4, err := true }) ∧
  (∀ s : State, s.key = ⟨unpack32 0x01234567#32, unpack32 0x89ABCDEF#32⟩ →
    ∃ t, exec (.keyLoad 8) s = .next t ∧
      t.w = ⟨unpack32 0xDF3BCA36#32, unpack32 0xF17C1AEC#32, unpack32 0x45A5B9C7#32,
        unpack32 0x26EBAD25#32, unpack32 0x8B2AECB7#32, unpack32 0xAC509D4C#32⟩)

/-- R167: W changes only at KEY_LOAD, CLEAR and reset; a write to KEY0 or KEY1 leaves it; and no block or segment
command sees KEY. -/
def Obligations.SubkeysChangeOnlyAtLoadClearReset : Prop :=
  (∀ s t : State, step s = .next t → t.w = s.w ∨ nextClears s ∨ nextCommand (.keyLoad 8) s) ∧
  (∀ (s : State) (v : Word), (busWrite 0x10 v s).w = s.w ∧ (busWrite 0x14 v s).w = s.w) ∧
  (∀ (n : Nat) (i : Instr), i = .encBlock n ∨ i = .decBlock n ∨ i = .cfbEncSeg n ∨ i = .cfbDecSeg n →
    ∀ (s : State) (k : Bytes8), ∃ t, exec i s = .next t ∧ exec i { s with key := k } = .next { t with key := k })

/-- R37, R34: every step keeps that W is the key schedule of some key while KEY_VALID is 1, and as reset leaves it
while it is 0. -/
def Obligations.StepKeepsSubkeysOfAKey : Prop :=
  SubkeysOfAKey State.reset ∧ ∀ s t : State, SubkeysOfAKey s → step s = .next t → SubkeysOfAKey t

/-! Block transform (42_block_transform.md). -/

/-- R180: the steps of EncryptBlock, and its example. -/
def Obligations.EncryptBlockRounds : Prop :=
  (∀ (p : Bytes8) (w : SubkeyFile) (l0 r0 r1 r2 r3 r4 : Bytes4),
    r0 = xor4 p.right w.w5 → l0 = xor4 (xor4 p.left w.w4) r0 →
    r1 = xor4 l0 (roundF (xor4 r0 w.w0)) → r2 = xor4 r0 (roundF (xor4 r1 w.w1)) →
    r3 = xor4 r1 (roundF (xor4 r2 w.w2)) → r4 = xor4 r2 (roundF (xor4 r3 w.w3)) →
    encryptBlock p w = ⟨r4, xor4 r3 r4⟩) ∧
  encryptBlock Bytes8.zeros (keySchedule Bytes8.zeros) = ⟨unpack32 0xE86C3633#32, unpack32 0xA90EF50F#32⟩

/-- R181: the steps of DecryptBlock, last step of encryption first, and its example. -/
def Obligations.DecryptBlockRounds : Prop :=
  (∀ (c : Bytes8) (w : SubkeyFile) (r0 l0 r1 r2 r3 : Bytes4),
    r3 = xor4 c.right c.left → r2 = xor4 c.left (roundF (xor4 r3 w.w3)) →
    r1 = xor4 r3 (roundF (xor4 r2 w.w2)) → r0 = xor4 r2 (roundF (xor4 r1 w.w1)) →
    l0 = xor4 r1 (roundF (xor4 r0 w.w0)) →
    decryptBlock c w = ⟨xor4 (xor4 l0 r0) w.w4, xor4 r0 w.w5⟩) ∧
  decryptBlock ⟨unpack32 0xE86C3633#32, unpack32 0xA90EF50F#32⟩ (keySchedule Bytes8.zeros) = Bytes8.zeros

/-- R182: decryption and encryption undo each other for every block and every subkey file, and both are
permutations. -/
def Obligations.BlockRoundTrip : Prop :=
  ∀ w : SubkeyFile,
    (∀ p : Bytes8, decryptBlock (encryptBlock p w) w = p) ∧
    (∀ c : Bytes8, encryptBlock (decryptBlock c w) w = c) ∧
    Function.Bijective (fun p => encryptBlock p w) ∧ Function.Bijective (fun c => decryptBlock c w)

/-- R183: the first `n` bytes of DIN, then zeros; what DIN holds from byte `n` on does not matter. -/
def Obligations.PadKeepsLeadingBytes : Prop :=
  ∀ (d : Bytes8) (n : Nat), 1 ≤ n → n ≤ 8 →
    (∀ i, i < 8 → byteAt (list8 (pad d n)) i = if i < n then byteAt (list8 d) i else 0x00#8) ∧
    ∀ d' : Bytes8, (∀ i, i < n → byteAt (list8 d') i = byteAt (list8 d) i) → pad d' n = pad d n

/-- R184: TrimLen is 8 minus the number of consecutive zero bytes at the end. -/
def Obligations.TrimLenStripsTrailingZeros : Prop :=
  ∀ b : Bytes8, trimLen b ≤ 8 ∧
    (∀ i, trimLen b ≤ i → i < 8 → byteAt (list8 b) i = 0x00#8) ∧
    (0 < trimLen b → byteAt (list8 b) (trimLen b - 1) ≠ 0x00#8) ∧
    (byteAt (list8 b) 7 ≠ 0x00#8 → trimLen b = 8) ∧ (b = Bytes8.zeros → trimLen b = 0)

/-- R185: ENC_BLOCK, its two errors in order, its word, its corner cases and its example. -/
def Obligations.EncBlockResult : Prop :=
  (∀ (s : State) (len : Nat), 1 ≤ len → len ≤ 8 → s.keyValid = true →
    exec (.encBlock len) s = .next { s with
      dout := encryptBlock (pad s.din len) s.w, outLen := 0x8#4, errCode := 0#4 }) ∧
  (∀ (s : State) (len : Nat), len < 1 ∨ 8 < len →
    exec (.encBlock len) s = .next { s with errCode := 0x4#4, err := true }) ∧
  (∀ (s : State) (len : Nat), 1 ≤ len → len ≤ 8 → s.keyValid = false →
    exec (.encBlock len) s = .next { s with errCode := 0x5#4, err := true }) ∧
  encode (.encBlock 8) = 0x00080002#32 ∧
  (∀ n, n < 16 → encode (.encBlock n) = BitVec.ofNat 32 (n * 0x10000 + 0x2)) ∧ (∀ d : Bytes8, pad d 8 = d) ∧
  (∃ w, encryptBlock Bytes8.zeros w ≠ Bytes8.zeros) ∧
  (∀ s : State, s.keyValid = true → s.w = keySchedule Bytes8.zeros →
    s.din = ⟨unpack32 0x54455354#32, unpack32 0x44415441#32⟩ →
    ∃ t, exec (.encBlock 8) s = .next t ∧ t.outLen = 0x8#4 ∧
      t.dout = ⟨unpack32 0xF4FBE1B4#32, unpack32 0xA878F091#32⟩)

/-- R186: DEC_BLOCK, its two errors in order, its word, its corner cases and its example. -/
def Obligations.DecBlockResult : Prop :=
  (∀ s : State, s.keyValid = true →
    exec (.decBlock 8) s = .next { s with
      dout := decryptBlock s.din s.w, outLen := BitVec.ofNat 4 (trimLen (decryptBlock s.din s.w)),
      errCode := 0#4 }) ∧
  (∀ (s : State) (len : Nat), len ≠ 8 →
    exec (.decBlock len) s = .next { s with errCode := 0x4#4, err := true }) ∧
  (∀ s : State, s.keyValid = false →
    exec (.decBlock 8) s = .next { s with errCode := 0x5#4, err := true }) ∧
  encode (.decBlock 8) = 0x00080003#32 ∧
  (∀ n, n < 16 → encode (.decBlock n) = BitVec.ofNat 32 (n * 0x10000 + 0x3)) ∧
  (∀ (x : Bytes8) (n : Nat) (w : SubkeyFile), 1 ≤ n → n ≤ 8 →
    decryptBlock (encryptBlock (pad x n) w) w = pad x n ∧
    (trimLen (pad x n) = n ↔ byteAt (list8 x) (n - 1) ≠ 0x00#8)) ∧
  (∀ s : State, s.keyValid = true → s.w = keySchedule ⟨unpack32 0x01234567#32, unpack32 0x89ABCDEF#32⟩ →
    s.din = ⟨unpack32 0x792C7D99#32, unpack32 0x3988C2E6#32⟩ →
    ∃ t, exec (.decBlock 8) s = .next t ∧ t.outLen = 0x3#4 ∧
      t.dout = ⟨unpack32 0x41424300#32, unpack32 0x00000000#32⟩)

/-- R187: a block command neither reads nor writes FB, SEG_BYTES, CFB_ACTIVE or CFB_ENDED, and its result depends only
on DIN, LEN and W (and KEY_VALID, which its error check reads). -/
def Obligations.BlockCommandsIgnoreTheSession : Prop :=
  ∀ (n : Nat) (i : Instr), i = .encBlock n ∨ i = .decBlock n → ∀ s : State,
    (∀ (f : Bytes8) (g : Nibble) (a e : Bool), ∃ t, exec i s = .next t ∧
      exec i { s with fb := f, segBytes := g, cfbActive := a, cfbEnded := e } =
        .next { t with fb := f, segBytes := g, cfbActive := a, cfbEnded := e } ∧
      t.fb = s.fb ∧ t.segBytes = s.segBytes ∧ t.cfbActive = s.cfbActive ∧ t.cfbEnded = s.cfbEnded) ∧
    (∀ s' : State, s'.din = s.din → s'.w = s.w → s'.keyValid = s.keyValid →
      ∃ t t', exec i s = .next t ∧ exec i s' = .next t' ∧ t'.errCode = t.errCode ∧
        (t.errCode = 0#4 → t'.dout = t.dout ∧ t'.outLen = t.outLen))

/-! CFB (43_cfb.md). -/

/-- R211: exactly the eight segment sizes are valid, on the SEGBITS field and beyond. -/
def Obligations.ValidSegmentSizes : Prop :=
  ∀ bits : Nat,
    (validSeg bits = true ↔ bits % 8 = 0 ∧ 1 ≤ bits / 8 ∧ bits / 8 ≤ 8) ∧
    (validSeg bits = true ↔ bits ∈ [8, 16, 24, 32, 40, 48, 56, 64]) ∧
    (bits = 0 ∨ bits % 8 ≠ 0 ∨ 72 ≤ bits → validSeg bits = false)

/-- R212: CFB_INIT, its two errors in order, its corner cases and its example. It does not matter whether a session was
open or ended. -/
def Obligations.CfbInitResult : Prop :=
  (∀ (s : State) (bits : Nat), validSeg bits = true → s.keyValid = true →
    exec (.cfbInit bits) s = .next { s with
      fb := s.din, segBytes := BitVec.ofNat 4 (bits / 8), cfbActive := true, cfbEnded := false,
      errCode := 0#4 }) ∧
  (∀ (s : State) (bits : Nat), validSeg bits = false →
    exec (.cfbInit bits) s = .next { s with errCode := 0x2#4, err := true }) ∧
  (∀ (s : State) (bits : Nat), validSeg bits = true → s.keyValid = false →
    exec (.cfbInit bits) s = .next { s with errCode := 0x5#4, err := true }) ∧
  encode (.cfbInit 8) = 0x00000804#32 ∧ encode (.cfbInit 64) = 0x00004004#32 ∧
  (∀ n, n < 128 → encode (.cfbInit n) = BitVec.ofNat 32 (n * 0x100 + 0x4)) ∧
  (∀ s : State, s.busy = false → s.keyValid = true →
    ∃ t, runEvents (setDin ⟨unpack32 0xFEDCBA98#32, unpack32 0x76543210#32⟩ ++
        [.write .word 0x04 0x00001804#32]) s = .next t ∧
      t.fb = ⟨unpack32 0xFEDCBA98#32, unpack32 0x76543210#32⟩ ∧ t.segBytes = 3#4 ∧ t.cfbActive = true)

/-- R214: the shifter drops the oldest `n` bytes and takes the segment in at the end; FB stays eight bytes. -/
def Obligations.ShiftFeedbackBytes : Prop :=
  ∀ (fb : Bytes8) (n : Nat) (c : List Byte), 1 ≤ n → n ≤ 8 → c.length = n →
    list8 (shiftFeedback fb n c) = (list8 fb).drop n ++ c ∧
    (∀ i, i < 8 - n → byteAt (list8 (shiftFeedback fb n c)) i = byteAt (list8 fb) (i + n)) ∧
    (n = 8 → list8 (shiftFeedback fb n c) = c)

/-- R215: after a segment command that succeeds, byte `i < n` of DOUT is DIN's XORed with the keystream's, the rest is
0x00, and DIN's bytes from `n` on do not matter. The premise on SEG_BYTES is the invariant of R36. -/
def Obligations.SegmentOutputBytes : Prop :=
  ∀ (n : Nat) (i : Instr), i = .cfbEncSeg n ∨ i = .cfbDecSeg n →
    ∀ s : State, s.cfbActive = true → s.cfbEnded = false → 1 ≤ n → n ≤ s.segBytes.toNat →
      s.segBytes.toNat ≤ 8 →
    ∃ t, exec i s = .next t ∧
      (∀ k, k < 8 → byteAt (list8 t.dout) k =
        if k < n then byteAt (list8 s.din) k ^^^ byteAt (list8 (encryptBlock s.fb s.w)) k else 0x00#8) ∧
      ∀ d : Bytes8, (∀ k, k < n → byteAt (list8 d) k = byteAt (list8 s.din) k) →
        exec i { s with din := d } = .next { t with din := d }

/-- R216: CFB_ENC_SEG, its three errors in order, its corner case and its example. The premise on SEG_BYTES is the
invariant of R36. -/
def Obligations.CfbEncSegResult : Prop :=
  (∀ (s : State) (n : Nat) (C : List Byte), s.cfbActive = true → s.cfbEnded = false → 1 ≤ n →
    n ≤ s.segBytes.toNat → s.segBytes.toNat ≤ 8 →
    C = xorSeq ((list8 s.din).take n) ((list8 (encryptBlock s.fb s.w)).take n) →
    C.length = n ∧
    exec (.cfbEncSeg n) s = .next { s with
      dout := toBytes8 (C ++ zeros (8 - n)), fb := toBytes8 ((list8 s.fb).drop n ++ C),
      cfbEnded := decide (n < s.segBytes.toNat), outLen := BitVec.ofNat 4 n, errCode := 0#4 } ∧
    (n = 8 → toBytes8 ((list8 s.fb).drop n ++ C) = toBytes8 (C ++ zeros (8 - n)))) ∧
  (∀ (s : State) (n : Nat), s.cfbActive = false →
    exec (.cfbEncSeg n) s = .next { s with errCode := 0x6#4, err := true }) ∧
  (∀ (s : State) (n : Nat), s.cfbActive = true → s.cfbEnded = true →
    exec (.cfbEncSeg n) s = .next { s with errCode := 0x7#4, err := true }) ∧
  (∀ (s : State) (n : Nat), s.cfbActive = true → s.cfbEnded = false → n < 1 ∨ s.segBytes.toNat < n →
    exec (.cfbEncSeg n) s = .next { s with errCode := 0x4#4, err := true }) ∧
  (∀ n, n < 16 → encode (.cfbEncSeg n) = BitVec.ofNat 32 (n * 0x10000 + 0x5)) ∧
  (∀ s : State, s.cfbActive = true → s.cfbEnded = false → s.segBytes = 8#4 → s.fb = Bytes8.zeros →
    s.w = keySchedule Bytes8.zeros → s.din = ⟨unpack32 0x54455354#32, unpack32 0x44415441#32⟩ →
    ∃ t, exec (.cfbEncSeg 8) s = .next t ∧ t.outLen = 8#4 ∧
      t.dout = ⟨unpack32 0xBC296567#32, unpack32 0xED4FA14E#32⟩ ∧
      t.fb = ⟨unpack32 0xBC296567#32, unpack32 0xED4FA14E#32⟩)

/-- R217: CFB_DEC_SEG, its three errors in order and its example: the ciphertext that enters FB is the input. The
premise on SEG_BYTES is the invariant of R36. -/
def Obligations.CfbDecSegResult : Prop :=
  (∀ (s : State) (n : Nat) (C : List Byte), s.cfbActive = true → s.cfbEnded = false → 1 ≤ n →
    n ≤ s.segBytes.toNat → s.segBytes.toNat ≤ 8 → C = (list8 s.din).take n →
    exec (.cfbDecSeg n) s = .next { s with
      dout := toBytes8 (xorSeq C ((list8 (encryptBlock s.fb s.w)).take n) ++ zeros (8 - n)),
      fb := toBytes8 ((list8 s.fb).drop n ++ C),
      cfbEnded := decide (n < s.segBytes.toNat), outLen := BitVec.ofNat 4 n, errCode := 0#4 }) ∧
  (∀ (s : State) (n : Nat), s.cfbActive = false →
    exec (.cfbDecSeg n) s = .next { s with errCode := 0x6#4, err := true }) ∧
  (∀ (s : State) (n : Nat), s.cfbActive = true → s.cfbEnded = true →
    exec (.cfbDecSeg n) s = .next { s with errCode := 0x7#4, err := true }) ∧
  (∀ (s : State) (n : Nat), s.cfbActive = true → s.cfbEnded = false → n < 1 ∨ s.segBytes.toNat < n →
    exec (.cfbDecSeg n) s = .next { s with errCode := 0x4#4, err := true }) ∧
  (∀ n, n < 16 → encode (.cfbDecSeg n) = BitVec.ofNat 32 (n * 0x10000 + 0x6)) ∧
  (∀ s : State, s.cfbActive = true → s.cfbEnded = false → s.segBytes = 8#4 → s.fb = Bytes8.zeros →
    s.w = keySchedule Bytes8.zeros → s.din = ⟨unpack32 0xBC296567#32, unpack32 0xED4FA14E#32⟩ →
    ∃ t, exec (.cfbDecSeg 8) s = .next t ∧
      t.dout = ⟨unpack32 0x54455354#32, unpack32 0x44415441#32⟩ ∧
      t.fb = ⟨unpack32 0xBC296567#32, unpack32 0xED4FA14E#32⟩)

/-- R218: a partial segment shifts FB by its own length and ends the session; an ended session stays ended until
CFB_INIT, KEY_LOAD, CLEAR or reset, and a segment command then raises STREAM_ENDED and changes nothing else. The
premises on SEG_BYTES and CFB_ACTIVE are invariants of R46 and R36. -/
def Obligations.PartialSegmentEndsTheSession : Prop :=
  (∀ (n : Nat) (i : Instr), i = .cfbEncSeg n ∨ i = .cfbDecSeg n →
    ∀ s : State, EngineInv s → s.cfbActive = true → s.cfbEnded = false → 1 ≤ n → n < s.segBytes.toNat →
    ∃ (t : State) (C : List Byte), exec i s = .next t ∧ t.errCode = 0#4 ∧ C.length = n ∧
      (i = .cfbEncSeg n → C = (list8 t.dout).take n) ∧ (i = .cfbDecSeg n → C = (list8 s.din).take n) ∧
      list8 t.fb = (list8 s.fb).drop n ++ C ∧ t.cfbEnded = true) ∧
  (∀ (n : Nat) (i : Instr), i = .cfbEncSeg n ∨ i = .cfbDecSeg n →
    ∀ s : State, EngineInv s → s.cfbEnded = true →
      exec i s = .next { s with errCode := 0x7#4, err := true }) ∧
  (∀ s t : State, step s = .next t → s.cfbEnded = true →
    t.cfbEnded = true ∨ nextClears s ∨ nextCommand (.keyLoad 8) s ∨ ∃ bits, nextCommand (.cfbInit bits) s)

/-- R221: decrypting what was encrypted gives the plaintext back, for every key, IV, valid segment size and plaintext
(its trailing zeros included), whatever states the two cores are in. -/
def Obligations.CfbStreamRoundTrip : Prop :=
  ∀ (key iv : Bytes8) (p : List Byte) (bits : Nat) (s s' : State),
    s.busy = false → s'.busy = false → validSeg bits = true →
    ∃ c, cfbEncrypt key iv p bits s = some c ∧ cfbDecrypt key iv c bits s' = some p

/-- R222: both stream programs keep the length. -/
def Obligations.CfbStreamKeepsLength : Prop :=
  ∀ (key iv : Bytes8) (p : List Byte) (bits : Nat) (s : State), s.busy = false → validSeg bits = true →
    (∃ c, cfbEncrypt key iv p bits s = some c ∧ c.length = p.length) ∧
    (∃ d, cfbDecrypt key iv p bits s = some d ∧ d.length = p.length)

/-- R219, R220: a bad segment size gives no result at all, and an empty message gives an empty result. -/
def Obligations.CfbStreamEdgeCases : Prop :=
  ∀ (key iv : Bytes8) (p : List Byte) (bits : Nat) (s : State), s.busy = false →
    (validSeg bits = false → cfbEncrypt key iv p bits s = none ∧ cfbDecrypt key iv p bits s = none) ∧
    (validSeg bits = true → cfbEncrypt key iv [] bits s = some [] ∧ cfbDecrypt key iv [] bits s = some [])

/-- R223: a session read out as FB and SEG_BYTES and written back by CFB_INIT, on a core that holds the same W, goes on
as the paused session would. -/
def Obligations.SessionSaveAndRestore : Prop :=
  ∀ s u : State, EngineInv s → s.cfbActive = true → s.cfbEnded = false →
    u.busy = false → u.keyValid = true → u.w = s.w →
    ∃ t, runEvents (setDin s.fb ++ hostCmd (.cfbInit (8 * s.segBytes.toNat))) u = .next t ∧
      t.fb = s.fb ∧ t.segBytes = s.segBytes ∧ t.cfbActive = true ∧ t.cfbEnded = false ∧ t.errCode = 0#4 ∧
      ∀ (n : Nat) (i : Instr), i = .cfbEncSeg n ∨ i = .cfbDecSeg n → ∀ d : Bytes8,
        ∃ a b, exec i { t with din := d } = .next a ∧ exec i { s with din := d } = .next b ∧
          a.errCode = b.errCode ∧ a.fb = b.fb ∧ a.cfbEnded = b.cfbEnded ∧
          (a.errCode = 0#4 → a.dout = b.dout ∧ a.outLen = b.outLen)

/-- R224: two decryptions under one W that differ in FB alone (a corrupted byte) agree again once
`ceil(8 / SEG_BYTES)` full segments have entered: their sessions, and so every later plaintext, are equal. -/
def Obligations.CfbSelfSynchronises : Prop :=
  ∀ (s s' : State) (segs : List Bytes8), EngineInv s → EngineInv s' →
    s.cfbActive = true → s'.cfbActive = true → s.cfbEnded = false → s'.cfbEnded = false →
    s.segBytes = s'.segBytes → s.w = s'.w →
    (8 + s.segBytes.toNat - 1) / s.segBytes.toNat ≤ segs.length →
    ∃ t t',
      runEvents (segs.flatMap fun d => setDin d ++ hostCmd (.cfbDecSeg s.segBytes.toNat)) s = .next t ∧
      runEvents (segs.flatMap fun d => setDin d ++ hostCmd (.cfbDecSeg s.segBytes.toNat)) s' = .next t' ∧
      t.fb = t'.fb ∧
      ∀ (n : Nat) (d : Bytes8), ∃ a a', exec (.cfbDecSeg n) { t with din := d } = .next a ∧
        exec (.cfbDecSeg n) { t' with din := d } = .next a' ∧ a.errCode = a'.errCode ∧
        (a.errCode = 0#4 → a.dout = a'.dout ∧ a.fb = a'.fb)

/-! Control and errors (44_control.md, 60_exceptions.md). -/

/-- R242: NOP writes ERR_CODE only; its word is exactly 0; CMD reads 0 afterwards. -/
def Obligations.NopResult : Prop :=
  (∀ s : State, exec .nop s = .next { s with errCode := 0#4 }) ∧
  (∀ w : Word, decode w = .ok .nop ↔ w = 0x00000000#32) ∧
  (∀ (w : Word) (s : State), w.extractLsb' 0 4 = 0#4 → w ≠ 0x00000000#32 →
    writeCommand w s = .next { s with cmd := w, errCode := 0x3#4, err := true }) ∧
  (∀ s : State, ∃ t, writeCommand 0x00000000#32 s = .next t ∧ busRead 0x04 t = 0x00000000#32 ∧
    t.errCode = 0#4 ∧ t.err = s.err)

/-- R240, R241, R260: every command completes; it either succeeds, with ERR_CODE 0 and (but for CLEAR, R243) ERR as it
was, or it fails with the error effect and nothing else. -/
def Obligations.EveryCommandSucceedsOrRaises : Prop :=
  ∀ (i : Instr) (s : State), ∃ t, exec i s = .next t ∧
    ((t.errCode = 0#4 ∧ (i ≠ .clear → t.err = s.err)) ∨
      ∃ e : ErrCode, t = { s with errCode := errBits e, err := true })

/-- R270: where a command leaves a nonzero code, it wrote ERR_CODE and ERR and nothing else, and CMD keeps the word
just written. -/
def Obligations.FailureWritesOnlyTheError : Prop :=
  (∀ (i : Instr) (s t : State), exec i s = .next t → t.errCode ≠ 0#4 →
    t = { s with errCode := t.errCode, err := true }) ∧
  (∀ (v : Word) (s t : State), writeCommand v s = .next t → t.errCode ≠ 0#4 →
    t = { s with cmd := v, errCode := t.errCode, err := true })

/-- R271, with the codes of R261: the first check that fails gives the code, for every command and illegal word. -/
def Obligations.ErrorPriority : Prop :=
  (∀ (v : Word) (s : State), (∀ i, decode v ≠ .ok i) → ∃ t, writeCommand v s = .next t ∧ t.errCode = 0x3#4) ∧
  (∀ (s : State) (n : Nat),
    (∃ t, exec .nop s = .next t ∧ t.errCode = 0x0#4) ∧ (∃ t, exec .clear s = .next t ∧ t.errCode = 0x0#4) ∧
    (∃ t, exec (.keyLoad n) s = .next t ∧ t.errCode = if n ≠ 8 then 0x1#4 else 0x0#4) ∧
    (∃ t, exec (.encBlock n) s = .next t ∧ t.errCode =
      if n < 1 ∨ 8 < n then 0x4#4 else if s.keyValid = false then 0x5#4 else 0x0#4) ∧
    (∃ t, exec (.decBlock n) s = .next t ∧ t.errCode =
      if n ≠ 8 then 0x4#4 else if s.keyValid = false then 0x5#4 else 0x0#4) ∧
    (∃ t, exec (.cfbInit n) s = .next t ∧ t.errCode =
      if validSeg n = false then 0x2#4 else if s.keyValid = false then 0x5#4 else 0x0#4) ∧
    (∃ t, exec (.cfbEncSeg n) s = .next t ∧ t.errCode =
      if s.cfbActive = false then 0x6#4 else if s.cfbEnded = true then 0x7#4
      else if n < 1 ∨ s.segBytes.toNat < n then 0x4#4 else 0x0#4) ∧
    (∃ t, exec (.cfbDecSeg n) s = .next t ∧ t.errCode =
      if s.cfbActive = false then 0x6#4 else if s.cfbEnded = true then 0x7#4
      else if n < 1 ∨ s.segBytes.toNat < n then 0x4#4 else 0x0#4)) ∧
  (∀ s : State, s.keyValid = false → ∃ t, exec (.cfbInit 12) s = .next t ∧ t.errCode = 0x2#4)

/-- R272: ERR, once set, stays until CLEAR or reset; ERR_CODE describes the latest command only, so a command's result
does not depend on the code before it. -/
def Obligations.ErrIsSticky : Prop :=
  (∀ s t : State, step s = .next t → s.err = true → t.err = true ∨ nextClears s) ∧
  (∀ (v : Word) (s : State) (c : Nibble), writeCommand v { s with errCode := c } = writeCommand v s)

/-! Whole-machine rules. -/

/-- R46, with R36's range of SEG_BYTES: every step from a state that meets the invariants gives one that does. -/
def Obligations.StepKeepsEngineInv : Prop :=
  ∀ s t : State, EngineInv s → step s = .next t → EngineInv t

/-- R46: the reset state meets the invariants. -/
def Obligations.ResetMeetsEngineInv : Prop := EngineInv State.reset

/-- R33, R42, R296: DOUT and OUT_LEN change only at a block or segment command that succeeds, at CLEAR and at reset. -/
def Obligations.OutputChangesOnlyByOutputCommands : Prop :=
  ∀ s t : State, step s = .next t →
    (t.dout = s.dout ∧ t.outLen = s.outLen) ∨ nextClears s ∨
    (t.errCode = 0#4 ∧ ∃ n, nextCommand (.encBlock n) s ∨ nextCommand (.decBlock n) s ∨
      nextCommand (.cfbEncSeg n) s ∨ nextCommand (.cfbDecSeg n) s)

/-- R31, R32, R35: KEY and DIN change only by host writes to their own halves, CLEAR and reset; FB only at CFB_INIT and
segment commands that succeed, CLEAR and reset. -/
def Obligations.OperandAndFeedbackWriters : Prop :=
  ∀ s t : State, step s = .next t →
    (t.key = s.key ∨ nextClears s ∨
      ∃ v rest, s.pending = .write .word 0x10 v :: rest ∨ s.pending = .write .word 0x14 v :: rest) ∧
    (t.din = s.din ∨ nextClears s ∨
      ∃ v rest, s.pending = .write .word 0x18 v :: rest ∨ s.pending = .write .word 0x1C v :: rest) ∧
    (t.fb = s.fb ∨ nextClears s ∨
      (t.errCode = 0#4 ∧ ∃ n, nextCommand (.cfbInit n) s ∨ nextCommand (.cfbEncSeg n) s ∨
        nextCommand (.cfbDecSeg n) s))

/-- R260, R280, with R62 and R294's obligations on the host: a core whose host keeps them never stops, and stays such a
core. -/
def Obligations.BehavedHostNeverStopsTheCore : Prop :=
  ∀ s : State, hostBehaves s = true → s.busy = false →
    ∃ t, step s = .next t ∧ hostBehaves t = true ∧ t.busy = false

/-- The unused bytes of DOUT are 0 in every state the invariants allow (R42, R184, R215): every step keeps it. -/
def Obligations.StepKeepsOutputPadded : Prop :=
  OutputPadded State.reset ∧
  ∀ s t : State, EngineInv s → OutputPadded s → step s = .next t → OutputPadded t

/-! Host programs and timing (30_encoding.md R100, 70_reset_and_hazards.md R301). -/

/-- R100: what LOADKEY, ENC, DEC, CFBINIT and GETFB do and return (`reads` holds the newest value first). -/
def Obligations.PseudoOperationsRun : Prop :=
  ∀ (s : State) (v : Bytes8), s.busy = false →
    (∃ t, runEvents (loadKey v) s = .next t ∧ t.key = v ∧ t.w = keySchedule v ∧ t.keyValid = true ∧
      t.reads = statusWord t :: s.reads) ∧
    (s.keyValid = true → ∃ t, runEvents (encOp v) s = .next t ∧ t.dout = encryptBlock v s.w ∧
      t.reads = pack32 t.dout.right :: pack32 t.dout.left :: statusWord t :: s.reads) ∧
    (s.keyValid = true → ∃ t, runEvents (decOp v) s = .next t ∧ t.dout = decryptBlock v s.w ∧
      t.reads = pack32 t.dout.right :: pack32 t.dout.left :: statusWord t :: s.reads) ∧
    (s.keyValid = true → ∀ bits, validSeg bits = true → ∃ t, runEvents (cfbInitOp v bits) s = .next t ∧
      t.fb = v ∧ t.segBytes = BitVec.ofNat 4 (bits / 8) ∧ t.cfbActive = true ∧
      t.reads = statusWord t :: s.reads) ∧
    runEvents getFb s = .next { s with reads := pack32 s.fb.right :: pack32 s.fb.left :: s.reads }

/-- R301: which OPEN latency each command has; a failed command and an illegal word have LAT_CTRL. -/
def Obligations.CommandLatencies : Prop :=
  ∀ (v : Word) (s t : State), writeCommand v s = .next t →
    (t.errCode ≠ 0#4 → commandLatency v s = Config.latCtrl) ∧
    (t.errCode = 0#4 → ∀ n,
      (decode v = .ok (.keyLoad n) → commandLatency v s = Config.latKey) ∧
      (decode v = .ok (.encBlock n) ∨ decode v = .ok (.decBlock n) → commandLatency v s = Config.latBlock) ∧
      (decode v = .ok (.cfbEncSeg n) ∨ decode v = .ok (.cfbDecSeg n) → commandLatency v s = Config.latSeg) ∧
      (decode v = .ok .nop ∨ decode v = .ok .clear ∨ decode v = .ok (.cfbInit n) →
        commandLatency v s = Config.latCtrl))
end

