-- ==== Sys2Proof/Laws/Bytes.lean ====
section
/-! SUPPORT. The small lemmas of the byte-sequence operators and the operand forms (Machine/Bytes.lean,
Machine/Operands.lean). -/

namespace Sys2Proof.Machine

@[simp] theorem length_list4 (b : Bytes4) : (list4 b).length = 4 := rfl

@[simp] theorem length_list8 (b : Bytes8) : (list8 b).length = 8 := rfl

@[simp] theorem length_zeros (n : Nat) : (zeros n).length = n := by simp [zeros]

theorem length_take (b : Bytes8) (n : Nat) : (take b n).length = min n 8 := by simp [take]

theorem length_drop (b : Bytes8) (n : Nat) : (drop b n).length = 8 - n := by simp [drop]

@[simp] theorem length_xorSeq (a b : List Byte) : (xorSeq a b).length = min a.length b.length := by
  simp [xorSeq]

theorem length_segmentXor (din o : Bytes8) (n : Nat) : (segmentXor din o n).length = min n 8 := by
  simp [segmentXor, length_take]

@[simp] theorem byteAt_nil (i : Nat) : byteAt [] i = 0#8 := rfl

@[simp] theorem byteAt_cons_zero (x : Byte) (l : List Byte) : byteAt (x :: l) 0 = x := rfl

@[simp] theorem byteAt_cons_succ (x : Byte) (l : List Byte) (i : Nat) :
    byteAt (x :: l) (i + 1) = byteAt l i := rfl

/-- The bytes of a packed sequence are its first eight bytes. -/
theorem byteAt_list8_toBytes8 (l : List Byte) {i : Nat} (h : i < 8) :
    byteAt (list8 (toBytes8 l)) i = byteAt l i := by
  have : i = 0 ∨ i = 1 ∨ i = 2 ∨ i = 3 ∨ i = 4 ∨ i = 5 ∨ i = 6 ∨ i = 7 := by omega
  rcases this with rfl | rfl | rfl | rfl | rfl | rfl | rfl | rfl <;> rfl

theorem byteAt_append (a b : List Byte) (i : Nat) :
    byteAt (a ++ b) i = if i < a.length then byteAt a i else byteAt b (i - a.length) := by
  split
  · rename_i h; simp [byteAt, List.getElem?_append_left h]
  · rename_i h; simp [byteAt, List.getElem?_append_right (Nat.le_of_not_lt h)]

theorem byteAt_take (l : List Byte) (n i : Nat) :
    byteAt (l.take n) i = if i < n then byteAt l i else 0#8 := by
  by_cases h : i < n <;> simp [byteAt, h]

theorem byteAt_drop (l : List Byte) (n i : Nat) : byteAt (l.drop n) i = byteAt l (n + i) := by
  simp [byteAt]

@[simp] theorem byteAt_zeros (n i : Nat) : byteAt (zeros n) i = 0#8 := by
  by_cases h : i < n <;> simp [byteAt, zeros, h]

/-- A packed full sequence reads back as it was. -/
theorem list8_toBytes8 (l : List Byte) (h : l.length = 8) : list8 (toBytes8 l) = l := by
  match l, h with
  | [_, _, _, _, _, _, _, _], _ => rfl

@[simp] theorem toBytes8_list8 (b : Bytes8) : toBytes8 (list8 b) = b := rfl

theorem xor4_comm (a b : Bytes4) : xor4 a b = xor4 b a := by simp [xor4, BitVec.xor_comm]

@[simp] theorem xor4_zeros (a : Bytes4) : xor4 a Bytes4.zeros = a := by simp [xor4, Bytes4.zeros]

@[simp] theorem zeros_xor4 (a : Bytes4) : xor4 Bytes4.zeros a = a := by simp [xor4, Bytes4.zeros]

/-- XOR undoes itself (40_primitives.md R120). -/
@[simp] theorem xor4_xor4_cancel (a b : Bytes4) : xor4 (xor4 a b) b = a := by
  simp [xor4]

/-- The value of TrimLen's loop is at most where it starts. -/
theorem trimFrom_le (b : Bytes8) (n : Nat) : trimFrom b n ≤ n := by
  induction n with
  | zero => simp [trimFrom]
  | succ n ih => rw [trimFrom]; split <;> omega

@[simp] theorem regAt_regOffset (r : Reg) : regAt (regOffset r) = some r := by
  cases r with
  | sk j => revert j; decide
  | _ => rfl

/-- A register stands at its own offset only. -/
theorem regAt_eq_some {off : Nat} {r : Reg} (h : regAt off = some r) : off = regOffset r := by
  unfold regAt at h
  split at h <;> simp_all <;> subst h <;> rfl

theorem busRead_regOffset (r : Reg) (s : State) : busRead (regOffset r) s = readReg s r := by
  simp [busRead]

end Sys2Proof.Machine
end

