-- ==== Sys2Proof/Laws/State.lean ====
section
/-! SUPPORT. What each field holds after each named update of the state (Machine/Ops.lean), one lemma per field and
update, and the fields of the reset state. -/

namespace Sys2Proof.Machine

@[simp] theorem State.reset_key : State.reset.key = Bytes8.zeros := rfl
@[simp] theorem State.reset_din : State.reset.din = Bytes8.zeros := rfl
@[simp] theorem State.reset_dout : State.reset.dout = Bytes8.zeros := rfl
@[simp] theorem State.reset_w : State.reset.w = SubkeyFile.zeros := rfl
@[simp] theorem State.reset_fb : State.reset.fb = Bytes8.zeros := rfl
@[simp] theorem State.reset_segBytes : State.reset.segBytes = 0#4 := rfl
@[simp] theorem State.reset_keyValid : State.reset.keyValid = false := rfl
@[simp] theorem State.reset_cfbActive : State.reset.cfbActive = false := rfl
@[simp] theorem State.reset_cfbEnded : State.reset.cfbEnded = false := rfl
@[simp] theorem State.reset_errCode : State.reset.errCode = 0#4 := rfl
@[simp] theorem State.reset_err : State.reset.err = false := rfl
@[simp] theorem State.reset_outLen : State.reset.outLen = 0#4 := rfl
@[simp] theorem State.reset_busy : State.reset.busy = false := rfl
@[simp] theorem State.reset_cmd : State.reset.cmd = 0#32 := rfl
@[simp] theorem State.reset_pending : State.reset.pending = [] := rfl
@[simp] theorem State.reset_reads : State.reset.reads = [] := rfl

section raise
variable (e : ErrCode) (s : State)
@[simp] theorem State.raise_key : (State.raise e s).key = s.key := rfl
@[simp] theorem State.raise_din : (State.raise e s).din = s.din := rfl
@[simp] theorem State.raise_dout : (State.raise e s).dout = s.dout := rfl
@[simp] theorem State.raise_w : (State.raise e s).w = s.w := rfl
@[simp] theorem State.raise_fb : (State.raise e s).fb = s.fb := rfl
@[simp] theorem State.raise_segBytes : (State.raise e s).segBytes = s.segBytes := rfl
@[simp] theorem State.raise_keyValid : (State.raise e s).keyValid = s.keyValid := rfl
@[simp] theorem State.raise_cfbActive : (State.raise e s).cfbActive = s.cfbActive := rfl
@[simp] theorem State.raise_cfbEnded : (State.raise e s).cfbEnded = s.cfbEnded := rfl
@[simp] theorem State.raise_errCode : (State.raise e s).errCode = errBits e := rfl
@[simp] theorem State.raise_err : (State.raise e s).err = true := rfl
@[simp] theorem State.raise_outLen : (State.raise e s).outLen = s.outLen := rfl
@[simp] theorem State.raise_busy : (State.raise e s).busy = s.busy := rfl
@[simp] theorem State.raise_cmd : (State.raise e s).cmd = s.cmd := rfl
@[simp] theorem State.raise_pending : (State.raise e s).pending = s.pending := rfl
@[simp] theorem State.raise_reads : (State.raise e s).reads = s.reads := rfl
end raise

section succeed
variable (s : State)
@[simp] theorem State.succeed_key : (State.succeed s).key = s.key := rfl
@[simp] theorem State.succeed_din : (State.succeed s).din = s.din := rfl
@[simp] theorem State.succeed_dout : (State.succeed s).dout = s.dout := rfl
@[simp] theorem State.succeed_w : (State.succeed s).w = s.w := rfl
@[simp] theorem State.succeed_fb : (State.succeed s).fb = s.fb := rfl
@[simp] theorem State.succeed_segBytes : (State.succeed s).segBytes = s.segBytes := rfl
@[simp] theorem State.succeed_keyValid : (State.succeed s).keyValid = s.keyValid := rfl
@[simp] theorem State.succeed_cfbActive : (State.succeed s).cfbActive = s.cfbActive := rfl
@[simp] theorem State.succeed_cfbEnded : (State.succeed s).cfbEnded = s.cfbEnded := rfl
@[simp] theorem State.succeed_errCode : (State.succeed s).errCode = 0#4 := rfl
@[simp] theorem State.succeed_err : (State.succeed s).err = s.err := rfl
@[simp] theorem State.succeed_outLen : (State.succeed s).outLen = s.outLen := rfl
@[simp] theorem State.succeed_busy : (State.succeed s).busy = s.busy := rfl
@[simp] theorem State.succeed_cmd : (State.succeed s).cmd = s.cmd := rfl
@[simp] theorem State.succeed_pending : (State.succeed s).pending = s.pending := rfl
@[simp] theorem State.succeed_reads : (State.succeed s).reads = s.reads := rfl
end succeed

section latchCommand
variable (v : Word) (s : State)
@[simp] theorem State.latchCommand_key : (State.latchCommand v s).key = s.key := rfl
@[simp] theorem State.latchCommand_din : (State.latchCommand v s).din = s.din := rfl
@[simp] theorem State.latchCommand_dout : (State.latchCommand v s).dout = s.dout := rfl
@[simp] theorem State.latchCommand_w : (State.latchCommand v s).w = s.w := rfl
@[simp] theorem State.latchCommand_fb : (State.latchCommand v s).fb = s.fb := rfl
@[simp] theorem State.latchCommand_segBytes : (State.latchCommand v s).segBytes = s.segBytes := rfl
@[simp] theorem State.latchCommand_keyValid : (State.latchCommand v s).keyValid = s.keyValid := rfl
@[simp] theorem State.latchCommand_cfbActive : (State.latchCommand v s).cfbActive = s.cfbActive := rfl
@[simp] theorem State.latchCommand_cfbEnded : (State.latchCommand v s).cfbEnded = s.cfbEnded := rfl
@[simp] theorem State.latchCommand_errCode : (State.latchCommand v s).errCode = s.errCode := rfl
@[simp] theorem State.latchCommand_err : (State.latchCommand v s).err = s.err := rfl
@[simp] theorem State.latchCommand_outLen : (State.latchCommand v s).outLen = s.outLen := rfl
@[simp] theorem State.latchCommand_busy : (State.latchCommand v s).busy = s.busy := rfl
@[simp] theorem State.latchCommand_cmd : (State.latchCommand v s).cmd = v := rfl
@[simp] theorem State.latchCommand_pending : (State.latchCommand v s).pending = s.pending := rfl
@[simp] theorem State.latchCommand_reads : (State.latchCommand v s).reads = s.reads := rfl
end latchCommand

section cleared
variable (s : State)
@[simp] theorem State.cleared_key : (State.cleared s).key = Bytes8.zeros := rfl
@[simp] theorem State.cleared_din : (State.cleared s).din = Bytes8.zeros := rfl
@[simp] theorem State.cleared_dout : (State.cleared s).dout = Bytes8.zeros := rfl
@[simp] theorem State.cleared_w : (State.cleared s).w = SubkeyFile.zeros := rfl
@[simp] theorem State.cleared_fb : (State.cleared s).fb = Bytes8.zeros := rfl
@[simp] theorem State.cleared_segBytes : (State.cleared s).segBytes = 0#4 := rfl
@[simp] theorem State.cleared_keyValid : (State.cleared s).keyValid = false := rfl
@[simp] theorem State.cleared_cfbActive : (State.cleared s).cfbActive = false := rfl
@[simp] theorem State.cleared_cfbEnded : (State.cleared s).cfbEnded = false := rfl
@[simp] theorem State.cleared_errCode : (State.cleared s).errCode = 0#4 := rfl
@[simp] theorem State.cleared_err : (State.cleared s).err = false := rfl
@[simp] theorem State.cleared_outLen : (State.cleared s).outLen = 0#4 := rfl
@[simp] theorem State.cleared_busy : (State.cleared s).busy = false := rfl
@[simp] theorem State.cleared_cmd : (State.cleared s).cmd = 0#32 := rfl
@[simp] theorem State.cleared_pending : (State.cleared s).pending = s.pending := rfl
@[simp] theorem State.cleared_reads : (State.cleared s).reads = s.reads := rfl
end cleared

section loadSubkeys
variable (x : SubkeyFile) (s : State)
@[simp] theorem State.loadSubkeys_key : (State.loadSubkeys x s).key = s.key := rfl
@[simp] theorem State.loadSubkeys_din : (State.loadSubkeys x s).din = s.din := rfl
@[simp] theorem State.loadSubkeys_dout : (State.loadSubkeys x s).dout = s.dout := rfl
@[simp] theorem State.loadSubkeys_w : (State.loadSubkeys x s).w = x := rfl
@[simp] theorem State.loadSubkeys_fb : (State.loadSubkeys x s).fb = s.fb := rfl
@[simp] theorem State.loadSubkeys_segBytes : (State.loadSubkeys x s).segBytes = s.segBytes := rfl
@[simp] theorem State.loadSubkeys_keyValid : (State.loadSubkeys x s).keyValid = true := rfl
@[simp] theorem State.loadSubkeys_cfbActive : (State.loadSubkeys x s).cfbActive = s.cfbActive := rfl
@[simp] theorem State.loadSubkeys_cfbEnded : (State.loadSubkeys x s).cfbEnded = s.cfbEnded := rfl
@[simp] theorem State.loadSubkeys_errCode : (State.loadSubkeys x s).errCode = s.errCode := rfl
@[simp] theorem State.loadSubkeys_err : (State.loadSubkeys x s).err = s.err := rfl
@[simp] theorem State.loadSubkeys_outLen : (State.loadSubkeys x s).outLen = s.outLen := rfl
@[simp] theorem State.loadSubkeys_busy : (State.loadSubkeys x s).busy = s.busy := rfl
@[simp] theorem State.loadSubkeys_cmd : (State.loadSubkeys x s).cmd = s.cmd := rfl
@[simp] theorem State.loadSubkeys_pending : (State.loadSubkeys x s).pending = s.pending := rfl
@[simp] theorem State.loadSubkeys_reads : (State.loadSubkeys x s).reads = s.reads := rfl
end loadSubkeys

section closeSession
variable (s : State)
@[simp] theorem State.closeSession_key : (State.closeSession s).key = s.key := rfl
@[simp] theorem State.closeSession_din : (State.closeSession s).din = s.din := rfl
@[simp] theorem State.closeSession_dout : (State.closeSession s).dout = s.dout := rfl
@[simp] theorem State.closeSession_w : (State.closeSession s).w = s.w := rfl
@[simp] theorem State.closeSession_fb : (State.closeSession s).fb = s.fb := rfl
@[simp] theorem State.closeSession_segBytes : (State.closeSession s).segBytes = 0#4 := rfl
@[simp] theorem State.closeSession_keyValid : (State.closeSession s).keyValid = s.keyValid := rfl
@[simp] theorem State.closeSession_cfbActive : (State.closeSession s).cfbActive = false := rfl
@[simp] theorem State.closeSession_cfbEnded : (State.closeSession s).cfbEnded = false := rfl
@[simp] theorem State.closeSession_errCode : (State.closeSession s).errCode = s.errCode := rfl
@[simp] theorem State.closeSession_err : (State.closeSession s).err = s.err := rfl
@[simp] theorem State.closeSession_outLen : (State.closeSession s).outLen = s.outLen := rfl
@[simp] theorem State.closeSession_busy : (State.closeSession s).busy = s.busy := rfl
@[simp] theorem State.closeSession_cmd : (State.closeSession s).cmd = s.cmd := rfl
@[simp] theorem State.closeSession_pending : (State.closeSession s).pending = s.pending := rfl
@[simp] theorem State.closeSession_reads : (State.closeSession s).reads = s.reads := rfl
end closeSession

section openSession
variable (iv : Bytes8) (n : Nat) (s : State)
@[simp] theorem State.openSession_key : (State.openSession iv n s).key = s.key := rfl
@[simp] theorem State.openSession_din : (State.openSession iv n s).din = s.din := rfl
@[simp] theorem State.openSession_dout : (State.openSession iv n s).dout = s.dout := rfl
@[simp] theorem State.openSession_w : (State.openSession iv n s).w = s.w := rfl
@[simp] theorem State.openSession_fb : (State.openSession iv n s).fb = iv := rfl
@[simp] theorem State.openSession_segBytes : (State.openSession iv n s).segBytes = BitVec.ofNat 4 n := rfl
@[simp] theorem State.openSession_keyValid : (State.openSession iv n s).keyValid = s.keyValid := rfl
@[simp] theorem State.openSession_cfbActive : (State.openSession iv n s).cfbActive = true := rfl
@[simp] theorem State.openSession_cfbEnded : (State.openSession iv n s).cfbEnded = false := rfl
@[simp] theorem State.openSession_errCode : (State.openSession iv n s).errCode = s.errCode := rfl
@[simp] theorem State.openSession_err : (State.openSession iv n s).err = s.err := rfl
@[simp] theorem State.openSession_outLen : (State.openSession iv n s).outLen = s.outLen := rfl
@[simp] theorem State.openSession_busy : (State.openSession iv n s).busy = s.busy := rfl
@[simp] theorem State.openSession_cmd : (State.openSession iv n s).cmd = s.cmd := rfl
@[simp] theorem State.openSession_pending : (State.openSession iv n s).pending = s.pending := rfl
@[simp] theorem State.openSession_reads : (State.openSession iv n s).reads = s.reads := rfl
end openSession

section output
variable (b : Bytes8) (n : Nat) (s : State)
@[simp] theorem State.output_key : (State.output b n s).key = s.key := rfl
@[simp] theorem State.output_din : (State.output b n s).din = s.din := rfl
@[simp] theorem State.output_dout : (State.output b n s).dout = b := rfl
@[simp] theorem State.output_w : (State.output b n s).w = s.w := rfl
@[simp] theorem State.output_fb : (State.output b n s).fb = s.fb := rfl
@[simp] theorem State.output_segBytes : (State.output b n s).segBytes = s.segBytes := rfl
@[simp] theorem State.output_keyValid : (State.output b n s).keyValid = s.keyValid := rfl
@[simp] theorem State.output_cfbActive : (State.output b n s).cfbActive = s.cfbActive := rfl
@[simp] theorem State.output_cfbEnded : (State.output b n s).cfbEnded = s.cfbEnded := rfl
@[simp] theorem State.output_errCode : (State.output b n s).errCode = s.errCode := rfl
@[simp] theorem State.output_err : (State.output b n s).err = s.err := rfl
@[simp] theorem State.output_outLen : (State.output b n s).outLen = BitVec.ofNat 4 n := rfl
@[simp] theorem State.output_busy : (State.output b n s).busy = s.busy := rfl
@[simp] theorem State.output_cmd : (State.output b n s).cmd = s.cmd := rfl
@[simp] theorem State.output_pending : (State.output b n s).pending = s.pending := rfl
@[simp] theorem State.output_reads : (State.output b n s).reads = s.reads := rfl
end output

section feedBack
variable (b : Bytes8) (s : State)
@[simp] theorem State.feedBack_key : (State.feedBack b s).key = s.key := rfl
@[simp] theorem State.feedBack_din : (State.feedBack b s).din = s.din := rfl
@[simp] theorem State.feedBack_dout : (State.feedBack b s).dout = s.dout := rfl
@[simp] theorem State.feedBack_w : (State.feedBack b s).w = s.w := rfl
@[simp] theorem State.feedBack_fb : (State.feedBack b s).fb = b := rfl
@[simp] theorem State.feedBack_segBytes : (State.feedBack b s).segBytes = s.segBytes := rfl
@[simp] theorem State.feedBack_keyValid : (State.feedBack b s).keyValid = s.keyValid := rfl
@[simp] theorem State.feedBack_cfbActive : (State.feedBack b s).cfbActive = s.cfbActive := rfl
@[simp] theorem State.feedBack_cfbEnded : (State.feedBack b s).cfbEnded = s.cfbEnded := rfl
@[simp] theorem State.feedBack_errCode : (State.feedBack b s).errCode = s.errCode := rfl
@[simp] theorem State.feedBack_err : (State.feedBack b s).err = s.err := rfl
@[simp] theorem State.feedBack_outLen : (State.feedBack b s).outLen = s.outLen := rfl
@[simp] theorem State.feedBack_busy : (State.feedBack b s).busy = s.busy := rfl
@[simp] theorem State.feedBack_cmd : (State.feedBack b s).cmd = s.cmd := rfl
@[simp] theorem State.feedBack_pending : (State.feedBack b s).pending = s.pending := rfl
@[simp] theorem State.feedBack_reads : (State.feedBack b s).reads = s.reads := rfl
end feedBack

section endIfPartial
variable (n : Nat) (s : State)
@[simp] theorem State.endIfPartial_key : (State.endIfPartial n s).key = s.key := rfl
@[simp] theorem State.endIfPartial_din : (State.endIfPartial n s).din = s.din := rfl
@[simp] theorem State.endIfPartial_dout : (State.endIfPartial n s).dout = s.dout := rfl
@[simp] theorem State.endIfPartial_w : (State.endIfPartial n s).w = s.w := rfl
@[simp] theorem State.endIfPartial_fb : (State.endIfPartial n s).fb = s.fb := rfl
@[simp] theorem State.endIfPartial_segBytes : (State.endIfPartial n s).segBytes = s.segBytes := rfl
@[simp] theorem State.endIfPartial_keyValid : (State.endIfPartial n s).keyValid = s.keyValid := rfl
@[simp] theorem State.endIfPartial_cfbActive : (State.endIfPartial n s).cfbActive = s.cfbActive := rfl
@[simp] theorem State.endIfPartial_cfbEnded : (State.endIfPartial n s).cfbEnded = (s.cfbEnded || decide (n < s.segBytes.toNat)) := rfl
@[simp] theorem State.endIfPartial_errCode : (State.endIfPartial n s).errCode = s.errCode := rfl
@[simp] theorem State.endIfPartial_err : (State.endIfPartial n s).err = s.err := rfl
@[simp] theorem State.endIfPartial_outLen : (State.endIfPartial n s).outLen = s.outLen := rfl
@[simp] theorem State.endIfPartial_busy : (State.endIfPartial n s).busy = s.busy := rfl
@[simp] theorem State.endIfPartial_cmd : (State.endIfPartial n s).cmd = s.cmd := rfl
@[simp] theorem State.endIfPartial_pending : (State.endIfPartial n s).pending = s.pending := rfl
@[simp] theorem State.endIfPartial_reads : (State.endIfPartial n s).reads = s.reads := rfl
end endIfPartial

section returnRead
variable (v : Word) (s : State)
@[simp] theorem State.returnRead_key : (State.returnRead v s).key = s.key := rfl
@[simp] theorem State.returnRead_din : (State.returnRead v s).din = s.din := rfl
@[simp] theorem State.returnRead_dout : (State.returnRead v s).dout = s.dout := rfl
@[simp] theorem State.returnRead_w : (State.returnRead v s).w = s.w := rfl
@[simp] theorem State.returnRead_fb : (State.returnRead v s).fb = s.fb := rfl
@[simp] theorem State.returnRead_segBytes : (State.returnRead v s).segBytes = s.segBytes := rfl
@[simp] theorem State.returnRead_keyValid : (State.returnRead v s).keyValid = s.keyValid := rfl
@[simp] theorem State.returnRead_cfbActive : (State.returnRead v s).cfbActive = s.cfbActive := rfl
@[simp] theorem State.returnRead_cfbEnded : (State.returnRead v s).cfbEnded = s.cfbEnded := rfl
@[simp] theorem State.returnRead_errCode : (State.returnRead v s).errCode = s.errCode := rfl
@[simp] theorem State.returnRead_err : (State.returnRead v s).err = s.err := rfl
@[simp] theorem State.returnRead_outLen : (State.returnRead v s).outLen = s.outLen := rfl
@[simp] theorem State.returnRead_busy : (State.returnRead v s).busy = s.busy := rfl
@[simp] theorem State.returnRead_cmd : (State.returnRead v s).cmd = s.cmd := rfl
@[simp] theorem State.returnRead_pending : (State.returnRead v s).pending = s.pending := rfl
@[simp] theorem State.returnRead_reads : (State.returnRead v s).reads = v :: s.reads := rfl
end returnRead

section withPending
variable (es : List HostEvent) (s : State)
@[simp] theorem State.withPending_key : (State.withPending es s).key = s.key := rfl
@[simp] theorem State.withPending_din : (State.withPending es s).din = s.din := rfl
@[simp] theorem State.withPending_dout : (State.withPending es s).dout = s.dout := rfl
@[simp] theorem State.withPending_w : (State.withPending es s).w = s.w := rfl
@[simp] theorem State.withPending_fb : (State.withPending es s).fb = s.fb := rfl
@[simp] theorem State.withPending_segBytes : (State.withPending es s).segBytes = s.segBytes := rfl
@[simp] theorem State.withPending_keyValid : (State.withPending es s).keyValid = s.keyValid := rfl
@[simp] theorem State.withPending_cfbActive : (State.withPending es s).cfbActive = s.cfbActive := rfl
@[simp] theorem State.withPending_cfbEnded : (State.withPending es s).cfbEnded = s.cfbEnded := rfl
@[simp] theorem State.withPending_errCode : (State.withPending es s).errCode = s.errCode := rfl
@[simp] theorem State.withPending_err : (State.withPending es s).err = s.err := rfl
@[simp] theorem State.withPending_outLen : (State.withPending es s).outLen = s.outLen := rfl
@[simp] theorem State.withPending_busy : (State.withPending es s).busy = s.busy := rfl
@[simp] theorem State.withPending_cmd : (State.withPending es s).cmd = s.cmd := rfl
@[simp] theorem State.withPending_pending : (State.withPending es s).pending = es := rfl
@[simp] theorem State.withPending_reads : (State.withPending es s).reads = s.reads := rfl
end withPending

end Sys2Proof.Machine
end

