-- ==== Sys2Proof/Laws/Ops.lean ====
section
/-! SUPPORT. What a checked command can do, said once (Machine/Ops.lean). -/

namespace Sys2Proof.Machine

@[simp] theorem firstFailure_nil : firstFailure [] = none := rfl

@[simp] theorem firstFailure_true (e : ErrCode) (cs : List (Bool × ErrCode)) :
    firstFailure ((true, e) :: cs) = some e := rfl

@[simp] theorem firstFailure_false (e : ErrCode) (cs : List (Bool × ErrCode)) :
    firstFailure ((false, e) :: cs) = firstFailure cs := rfl

/-- No check failed exactly when every condition is false. -/
theorem firstFailure_eq_none (cs : List (Bool × ErrCode)) :
    firstFailure cs = none ↔ ∀ c ∈ cs, c.1 = false := by
  induction cs with
  | nil => simp
  | cons c cs ih => obtain ⟨b, e⟩ := c; cases b <;> simp [ih]

/-- The error reported is one of the command's. -/
theorem firstFailure_mem {cs : List (Bool × ErrCode)} {e : ErrCode} (h : firstFailure cs = some e) :
    (true, e) ∈ cs := by
  induction cs with
  | nil => simp at h
  | cons c cs ih =>
    obtain ⟨b, e'⟩ := c
    cases b with
    | false => exact List.mem_cons_of_mem _ (ih h)
    | true => simp_all

theorem checked_of_none {cs : List (Bool × ErrCode)} (h : firstFailure cs = none) (f : State → State)
    (s : State) : checked cs f s = .next (f s).succeed := by simp [checked, h]

theorem checked_of_some {cs : List (Bool × ErrCode)} {e : ErrCode} (h : firstFailure cs = some e)
    (f : State → State) (s : State) : checked cs f s = .next (s.raise e) := by simp [checked, h]

/-- A command fails with the first failing check's error and nothing else, or has its whole effect
(44_control.md R240). -/
theorem checked_cases {cs : List (Bool × ErrCode)} {f : State → State} {s t : State}
    (h : checked cs f s = .next t) :
    (∃ e, firstFailure cs = some e ∧ t = s.raise e) ∨ (firstFailure cs = none ∧ t = (f s).succeed) := by
  unfold checked at h
  split at h
  · next e he => cases h; exact .inl ⟨e, he, rfl⟩
  · next hn => cases h; exact .inr ⟨hn, rfl⟩

/-- A checked command always completes. -/
theorem checked_next (cs : List (Bool × ErrCode)) (f : State → State) (s : State) :
    ∃ t, checked cs f s = .next t := by
  unfold checked; split <;> exact ⟨_, rfl⟩

/-- A change `g` of the state that the checks, the error effect and the command's effect do not notice carries over to
the result. -/
theorem checked_comm {cs : List (Bool × ErrCode)} {f : State → State} {s t : State} (g : State → State)
    (hr : ∀ e, (g s).raise e = g (s.raise e)) (hf : (f (g s)).succeed = g (f s).succeed)
    (h : checked cs f s = .next t) : checked cs f (g s) = .next (g t) := by
  rcases checked_cases h with ⟨e, he, rfl⟩ | ⟨hn, rfl⟩
  · rw [checked_of_some he, hr]
  · rw [checked_of_none hn, hf]

theorem errBits_ne_zero (e : ErrCode) : errBits e ≠ 0#4 := by cases e <;> decide

theorem errBits_le_seven (e : ErrCode) : (errBits e).toNat ≤ 7 := by cases e <;> decide

end Sys2Proof.Machine
end

