-- ==== Sys2Proof/Laws/Commands.lean ====
section
/-! SUPPORT. What each command can do, said once: it fails with `raise`, or its checks held and the next state is
this. -/

namespace Sys2Proof.Machine

theorem execNop_eq (s : State) : execNop s = .next s.succeed := rfl

theorem execClear_eq (s : State) : execClear s = .next s.cleared := rfl

theorem execKeyLoad_cases {len : Nat} {s t : State} (h : execKeyLoad len s = .next t) :
    (∃ e, t = s.raise e) ∨
      (len = 8 ∧ t = ((s.loadSubkeys (keySchedule s.key)).closeSession).succeed) := by
  rcases checked_cases h with ⟨e, -, rfl⟩ | ⟨hn, rfl⟩
  · exact .inl ⟨e, rfl⟩
  · simp only [firstFailure_eq_none, List.mem_singleton, forall_eq] at hn
    exact .inr ⟨by simpa using hn, rfl⟩

theorem execEncBlock_cases {len : Nat} {s t : State} (h : execEncBlock len s = .next t) :
    (∃ e, t = s.raise e) ∨
      (1 ≤ len ∧ len ≤ 8 ∧ s.keyValid = true ∧
        t = (s.output (encryptBlock (pad s.din len) s.w) 8).succeed) := by
  rcases checked_cases h with ⟨e, -, rfl⟩ | ⟨hn, rfl⟩
  · exact .inl ⟨e, rfl⟩
  · simp [firstFailure_eq_none, Config.blockBytes] at hn
    exact .inr ⟨by omega, by omega, hn.2, rfl⟩

theorem execDecBlock_cases {len : Nat} {s t : State} (h : execDecBlock len s = .next t) :
    (∃ e, t = s.raise e) ∨
      (len = 8 ∧ s.keyValid = true ∧
        t = (s.output (decryptBlock s.din s.w) (trimLen (decryptBlock s.din s.w))).succeed) := by
  rcases checked_cases h with ⟨e, -, rfl⟩ | ⟨hn, rfl⟩
  · exact .inl ⟨e, rfl⟩
  · simp [firstFailure_eq_none] at hn
    exact .inr ⟨hn.1, hn.2, rfl⟩

theorem execCfbInit_cases {bits : Nat} {s t : State} (h : execCfbInit bits s = .next t) :
    (∃ e, t = s.raise e) ∨
      (validSeg bits = true ∧ s.keyValid = true ∧ t = (s.openSession s.din (bits / 8)).succeed) := by
  rcases checked_cases h with ⟨e, -, rfl⟩ | ⟨hn, rfl⟩
  · exact .inl ⟨e, rfl⟩
  · simp [firstFailure_eq_none] at hn
    exact .inr ⟨hn.1, hn.2, rfl⟩

/-- When a segment command's checks hold (43_cfb.md R216). -/
theorem segmentChecks_none {len : Nat} {s : State} :
    firstFailure (segmentChecks len s) = none ↔
      s.cfbActive = true ∧ s.cfbEnded = false ∧ 1 ≤ len ∧ len ≤ s.segBytes.toNat := by
  simp only [segmentChecks, firstFailure_eq_none, List.forall_mem_cons, List.not_mem_nil, Bool.not_eq_false',
    decide_eq_false_iff_not]
  constructor
  · rintro ⟨h1, h2, h3, -⟩; exact ⟨h1, h2, by omega, by omega⟩
  · rintro ⟨h1, h2, h3, h4⟩; exact ⟨h1, h2, by omega, by simp⟩

theorem execCfbEncSeg_cases {len : Nat} {s t : State} (h : execCfbEncSeg len s = .next t) :
    (∃ e, t = s.raise e) ∨
      (s.cfbActive = true ∧ s.cfbEnded = false ∧ 1 ≤ len ∧ len ≤ s.segBytes.toNat ∧
        t = (segmentEffect len (fun u => segmentXor u.din (keystream u.fb u.w) len) s).succeed) := by
  rcases checked_cases h with ⟨e, -, rfl⟩ | ⟨hn, rfl⟩
  · exact .inl ⟨e, rfl⟩
  · obtain ⟨h1, h2, h3, h4⟩ := segmentChecks_none.1 hn
    exact .inr ⟨h1, h2, h3, h4, rfl⟩

theorem execCfbDecSeg_cases {len : Nat} {s t : State} (h : execCfbDecSeg len s = .next t) :
    (∃ e, t = s.raise e) ∨
      (s.cfbActive = true ∧ s.cfbEnded = false ∧ 1 ≤ len ∧ len ≤ s.segBytes.toNat ∧
        t = (segmentEffect len (fun u => take u.din len) s).succeed) := by
  rcases checked_cases h with ⟨e, -, rfl⟩ | ⟨hn, rfl⟩
  · exact .inl ⟨e, rfl⟩
  · obtain ⟨h1, h2, h3, h4⟩ := segmentChecks_none.1 hn
    exact .inr ⟨h1, h2, h3, h4, rfl⟩

/-- What a segment command leaves in each field it writes; the rest is as before. -/
theorem segmentEffect_eq (n : Nat) (c : State → List Byte) (s : State) :
    segmentEffect n c s =
      { s with
        dout := segmentOut (segmentXor s.din (keystream s.fb s.w) n) n
        outLen := BitVec.ofNat 4 n
        fb := shiftFeedback s.fb n (c s)
        cfbEnded := s.cfbEnded || decide (n < s.segBytes.toNat) } := rfl

end Sys2Proof.Machine
end

