-- ==== Sys2Proof/Laws/Decode.lean ====
section
/-! SUPPORT. What the decoder can answer, said once (Decode.lean). -/

namespace Sys2Proof

/-- A word that decodes fits a row, and the command is the one that row makes. -/
theorem decode_row {w : Word} {i : Instr} (h : decode w = .ok i) :
    ∃ r ∈ opcodeRows, r.fits w = true ∧ r.make w = i := by
  unfold decode at h
  split at h
  · next r hr =>
    cases h
    exact ⟨r, List.mem_of_find?_eq_some hr, by simpa using List.find?_some hr, rfl⟩
  · cases h

/-- A word that fits no row is rejected. -/
theorem decode_error {w : Word} (h : ∀ r ∈ opcodeRows, r.fits w = false) : ∃ e, decode w = .error e := by
  have hn : opcodeRows.find? (fun r => r.fits w) = none :=
    List.find?_eq_none.2 fun r hr => by simp [h r hr]
  unfold decode
  rw [hn]
  exact ⟨_, rfl⟩

/-- The forms of a command, each with the row its word fits. -/
theorem decode_forms {w : Word} {i : Instr} (h : decode w = .ok i) :
    (i = .nop ∧ w &&& 0xFFFFFFFF#32 = 0#32) ∨
    (i = .keyLoad (lenField w) ∧ w &&& 0xFFF0FFFF#32 = 1#32) ∨
    (i = .encBlock (lenField w) ∧ w &&& 0xFFF0FFFF#32 = 2#32) ∨
    (i = .decBlock (lenField w) ∧ w &&& 0xFFF0FFFF#32 = 3#32) ∨
    (i = .cfbInit (segBitsField w) ∧ w &&& 0xFFFF80FF#32 = 4#32) ∨
    (i = .cfbEncSeg (lenField w) ∧ w &&& 0xFFF0FFFF#32 = 5#32) ∨
    (i = .cfbDecSeg (lenField w) ∧ w &&& 0xFFF0FFFF#32 = 6#32) ∨
    (i = .clear ∧ w &&& 0xFFFFFFFF#32 = 7#32) := by
  obtain ⟨r, hr, hf, rfl⟩ := decode_row h
  simp only [OpcodeRow.fits, beq_iff_eq] at hf
  simp only [opcodeRows, List.mem_cons, List.not_mem_nil, or_false] at hr
  rcases hr with rfl | rfl | rfl | rfl | rfl | rfl | rfl | rfl
  · exact .inl ⟨rfl, hf⟩
  · exact .inr (.inl ⟨rfl, hf⟩)
  · exact .inr (.inr (.inl ⟨rfl, hf⟩))
  · exact .inr (.inr (.inr (.inl ⟨rfl, hf⟩)))
  · exact .inr (.inr (.inr (.inr (.inl ⟨rfl, hf⟩))))
  · exact .inr (.inr (.inr (.inr (.inr (.inl ⟨rfl, hf⟩)))))
  · exact .inr (.inr (.inr (.inr (.inr (.inr (.inl ⟨rfl, hf⟩))))))
  · exact .inr (.inr (.inr (.inr (.inr (.inr (.inr ⟨rfl, hf⟩))))))

end Sys2Proof
end

