-- ==== Sys2Proof/Laws/Access.lean ====
section
/-! SUPPORT. What a host event and a step can do, said once (Machine/Access.lean, Machine/Step.lean). -/

namespace Sys2Proof.Machine

/-- An access goes on exactly when nothing stops it. -/
theorem admitted_of_ok {width : AccessWidth} {off : Nat} {sr : Bool} {s : State} {go : Result}
    (hw : width = .word) (ha : off % 4 = 0) (ho : off < 128) (hb : s.busy = true → sr = true) :
    admitted width off sr s go = go := by
  have hb' : (s.busy && !sr) = false := by cases h : s.busy <;> simp_all
  simp [admitted, hw, ha, hb', Nat.not_le.2 ho]

/-- An access that answers a next state was let through. -/
theorem admitted_next {width : AccessWidth} {off : Nat} {sr : Bool} {s t : State} {go : Result}
    (h : admitted width off sr s go = .next t) :
    go = .next t ∧ width = .word ∧ off % 4 = 0 ∧ off < 128 ∧ (s.busy = true → sr = true) := by
  unfold admitted at h
  split at h
  · cases h
  split at h
  · cases h
  split at h
  · cases h
  rename_i h1 h2 h3
  simp only [not_or, not_not] at h2
  exact ⟨h, h2.1, h2.2, by simpa using h1, by cases hb : s.busy <;> simp_all⟩

/-- The cases of an event that takes effect. -/
theorem perform_cases {e : HostEvent} {s t : State} (h : perform e s = .next t) :
    (e = .reset ∧ t = s.cleared) ∨
    (∃ off, e = .read .word off ∧ off % 4 = 0 ∧ off < 128 ∧ t = s.returnRead (busRead off s)) ∨
    (∃ off v, e = .write .word off v ∧ off % 4 = 0 ∧ off < 128 ∧ off ≠ 4 ∧ s.busy = false ∧
      t = busWrite off v s) ∨
    (∃ v, e = .write .word 4 v ∧ s.busy = false ∧ writeCommand v s = .next t) := by
  cases e with
  | reset => cases h; exact .inl ⟨rfl, rfl⟩
  | read width off =>
    obtain ⟨hg, rfl, ha, ho, -⟩ := admitted_next h
    cases hg
    exact .inr (.inl ⟨off, rfl, ha, ho, rfl⟩)
  | write width off v =>
    obtain ⟨hg, rfl, ha, ho, hb⟩ := admitted_next h
    have hb : s.busy = false := by cases hs : s.busy <;> simp_all
    by_cases h4 : off = 4
    · subst h4; exact .inr (.inr (.inr ⟨v, rfl, hb, hg⟩))
    · rw [if_neg h4] at hg
      cases hg
      exact .inr (.inr (.inl ⟨off, v, rfl, ha, ho, h4, hb, rfl⟩))

/-- The cases of a CMD write: an illegal word raises ILLEGAL_COMMAND, any other word runs its command. -/
theorem writeCommand_cases {v : Word} {s t : State} (h : writeCommand v s = .next t) :
    (∃ i, decode v = .ok i ∧ exec i (s.latchCommand v) = .next t) ∨
    (∃ r, decode v = .error r ∧ t = (s.latchCommand v).raise .illegalCommand) := by
  unfold writeCommand at h
  split at h
  · next i hi => exact .inl ⟨i, hi, h⟩
  · next r hr => cases h; exact .inr ⟨r, hr, rfl⟩

/-- A step waits, or performs the oldest event. -/
theorem step_cases {s t : State} (h : step s = .next t) :
    (s.pending = [] ∧ t = s) ∨
    (∃ e rest, s.pending = e :: rest ∧ perform e (s.withPending rest) = .next t) := by
  unfold step at h
  split at h
  · next hp => cases h; exact .inl ⟨hp, rfl⟩
  · next e rest hp => exact .inr ⟨e, rest, hp, h⟩

theorem step_of_pending {s : State} {e : HostEvent} {rest : List HostEvent} (h : s.pending = e :: rest) :
    step s = perform e (s.withPending rest) := by simp [step, h]

/-- What a write to a register other than CMD changes: KEY and DIN at most. -/
theorem busWrite_eq (off : Nat) (v : Word) (s : State) :
    ∃ k d, busWrite off v s = { s with key := k, din := d } := by
  unfold busWrite
  split <;> exact ⟨_, _, rfl⟩

/-- Every command completes (93_implementation_defined.md U3). -/
theorem exec_next (i : Instr) (s : State) : ∃ t, exec i s = .next t := by
  cases i with
  | clear => exact ⟨_, rfl⟩
  | nop => unfold exec execNop; exact checked_next _ _ _
  | keyLoad => unfold exec execKeyLoad; exact checked_next _ _ _
  | encBlock => unfold exec execEncBlock; exact checked_next _ _ _
  | decBlock => unfold exec execDecBlock; exact checked_next _ _ _
  | cfbInit => unfold exec execCfbInit; exact checked_next _ _ _
  | cfbEncSeg => unfold exec execCfbEncSeg; exact checked_next _ _ _
  | cfbDecSeg => unfold exec execCfbDecSeg; exact checked_next _ _ _

/-- Every CMD write completes. -/
theorem writeCommand_next (v : Word) (s : State) : ∃ t, writeCommand v s = .next t := by
  unfold writeCommand
  split
  · exact exec_next _ _
  · exact ⟨_, rfl⟩

/-- The cases of a command: it raises an error, or its checks held and it had its effect. -/
theorem exec_cases {i : Instr} {s t : State} (h : exec i s = .next t) :
    (∃ e, t = s.raise e) ∨ (i = .nop ∧ t = s.succeed) ∨ (i = .clear ∧ t = s.cleared) ∨
    (i = .keyLoad 8 ∧ t = ((s.loadSubkeys (keySchedule s.key)).closeSession).succeed) ∨
    (∃ len, i = .encBlock len ∧ s.keyValid = true ∧
      t = (s.output (encryptBlock (pad s.din len) s.w) 8).succeed) ∨
    (i = .decBlock 8 ∧ s.keyValid = true ∧
      t = (s.output (decryptBlock s.din s.w) (trimLen (decryptBlock s.din s.w))).succeed) ∨
    (∃ bits, i = .cfbInit bits ∧ validSeg bits = true ∧ s.keyValid = true ∧
      t = (s.openSession s.din (bits / 8)).succeed) ∨
    (∃ len c, (i = .cfbEncSeg len ∨ i = .cfbDecSeg len) ∧ s.cfbActive = true ∧ s.cfbEnded = false ∧
      1 ≤ len ∧ len ≤ s.segBytes.toNat ∧ t = (segmentEffect len c s).succeed) := by
  cases i with
  | nop => cases h; exact .inr (.inl ⟨rfl, rfl⟩)
  | clear => cases h; exact .inr (.inr (.inl ⟨rfl, rfl⟩))
  | keyLoad len =>
    rcases execKeyLoad_cases h with he | ⟨rfl, rfl⟩
    · exact .inl he
    · exact .inr (.inr (.inr (.inl ⟨rfl, rfl⟩)))
  | encBlock len =>
    rcases execEncBlock_cases h with he | ⟨-, -, hk, rfl⟩
    · exact .inl he
    · exact .inr (.inr (.inr (.inr (.inl ⟨len, rfl, hk, rfl⟩))))
  | decBlock len =>
    rcases execDecBlock_cases h with he | ⟨rfl, hk, rfl⟩
    · exact .inl he
    · exact .inr (.inr (.inr (.inr (.inr (.inl ⟨rfl, hk, rfl⟩)))))
  | cfbInit bits =>
    rcases execCfbInit_cases h with he | ⟨hv, hk, rfl⟩
    · exact .inl he
    · exact .inr (.inr (.inr (.inr (.inr (.inr (.inl ⟨bits, rfl, hv, hk, rfl⟩))))))
  | cfbEncSeg len =>
    rcases execCfbEncSeg_cases h with he | ⟨h1, h2, h3, h4, rfl⟩
    · exact .inl he
    · exact .inr (.inr (.inr (.inr (.inr (.inr (.inr ⟨len, _, .inl rfl, h1, h2, h3, h4, rfl⟩))))))
  | cfbDecSeg len =>
    rcases execCfbDecSeg_cases h with he | ⟨h1, h2, h3, h4, rfl⟩
    · exact .inl he
    · exact .inr (.inr (.inr (.inr (.inr (.inr (.inr ⟨len, _, .inr rfl, h1, h2, h3, h4, rfl⟩))))))

end Sys2Proof.Machine
end

