-- ==== Sys2Proof/Laws/Cipher.lean ====
section
/-! SUPPORT. What undoes what in the block transform (Machine/Cipher.lean; 42_block_transform.md R181). -/

namespace Sys2Proof.Machine

@[simp] theorem swapHalves_swapHalves (x : Bytes8) : swapHalves (swapHalves x) = x := rfl

@[simp] theorem preMix_preMix (x : Bytes8) : preMix (preMix x) = x := by simp [preMix]

@[simp] theorem postMix_postMix (x : Bytes8) : postMix (postMix x) = x := by simp [postMix]

@[simp] theorem whiten_whiten (w : SubkeyFile) (x : Bytes8) : whiten w (whiten w x) = x := by simp [whiten]

/-- A Feistel step leaves the right half, so it undoes itself. -/
@[simp] theorem feistel_feistel (k : Bytes4) (x : Bytes8) : feistel k (feistel k x) = x := by simp [feistel]

@[simp] theorem decRound_encRound (x : Bytes8) (k : Bytes4) : decRound (encRound x k) k = x := by
  simp [decRound, encRound]

@[simp] theorem encRound_decRound (x : Bytes8) (k : Bytes4) : encRound (decRound x k) k = x := by
  simp [decRound, encRound]

end Sys2Proof.Machine
end

