-- ==== Sys2Proof/Laws/PerInstr.lean ====
section
/-! SUPPORT. The per-instruction family OwnRow: the word of a well-formed command matches a row of the opcode table
that makes the command again (30_encoding.md R95, R99). -/

namespace Sys2Proof.Laws.OwnRow

def Statement (i : Instr) : Prop :=
  i.wellFormed = true → ∃ r ∈ opcodeRows, r.fits (encode i) = true ∧ r.make (encode i) = i

/-- A claim about a LEN that fits its field, checked at its sixteen values. -/
theorem of_len {P : Nat → Prop} (h : ∀ n : Fin 16, P n.val) {len : Nat} (hl : lenFits len = true) : P len := by
  have hl : len < 16 := by simpa [lenFits] using hl
  exact h ⟨len, hl⟩

/-- A claim about a SEGBITS that fits its field, checked at its 128 values. -/
theorem of_segBits {P : Nat → Prop} (h : ∀ n : Fin 128, P n.val) {bits : Nat}
    (hb : segBitsFits bits = true) : P bits := by
  have hb : bits < 128 := by simpa [segBitsFits] using hb
  exact h ⟨bits, hb⟩

theorem nop : Statement .nop := fun _ => by decide

theorem keyLoad (len : Nat) : Statement (.keyLoad len) := fun hl =>
  of_len (P := fun n => ∃ r ∈ opcodeRows, r.fits (encode (.keyLoad n)) = true ∧ r.make (encode (.keyLoad n)) = .keyLoad n)
    (by decide) hl

theorem encBlock (len : Nat) : Statement (.encBlock len) := fun hl =>
  of_len (P := fun n => ∃ r ∈ opcodeRows, r.fits (encode (.encBlock n)) = true ∧ r.make (encode (.encBlock n)) = .encBlock n)
    (by decide) hl

theorem decBlock (len : Nat) : Statement (.decBlock len) := fun hl =>
  of_len (P := fun n => ∃ r ∈ opcodeRows, r.fits (encode (.decBlock n)) = true ∧ r.make (encode (.decBlock n)) = .decBlock n)
    (by decide) hl

theorem cfbInit (bits : Nat) : Statement (.cfbInit bits) := fun hb =>
  of_segBits (P := fun n => ∃ r ∈ opcodeRows, r.fits (encode (.cfbInit n)) = true ∧ r.make (encode (.cfbInit n)) = .cfbInit n)
    (by decide) hb

theorem cfbEncSeg (len : Nat) : Statement (.cfbEncSeg len) := fun hl =>
  of_len (P := fun n => ∃ r ∈ opcodeRows, r.fits (encode (.cfbEncSeg n)) = true ∧ r.make (encode (.cfbEncSeg n)) = .cfbEncSeg n)
    (by decide) hl

theorem cfbDecSeg (len : Nat) : Statement (.cfbDecSeg len) := fun hl =>
  of_len (P := fun n => ∃ r ∈ opcodeRows, r.fits (encode (.cfbDecSeg n)) = true ∧ r.make (encode (.cfbDecSeg n)) = .cfbDecSeg n)
    (by decide) hl

theorem clear : Statement .clear := fun _ => by decide

end Sys2Proof.Laws.OwnRow
end

