-- ==== Sys2Proof/Laws/Run.lean ====
section
/-! SUPPORT. How a list of host events runs (Machine/Access.lean `runEvents`), and the forms of a step. -/

namespace Sys2Proof.Machine

/-- An event that takes effect is followed by the rest. -/
theorem runEvents_cons_next {e : HostEvent} {s t : State} (h : perform e s = .next t) (es : List HostEvent) :
    runEvents (e :: es) s = runEvents es t := by simp [runEvents, h]

/-- A list that completes is followed by what comes after it. -/
theorem runEvents_append {es : List HostEvent} {s t : State} (h : runEvents es s = .next t)
    (fs : List HostEvent) : runEvents (es ++ fs) s = runEvents fs t := by
  induction es generalizing s with
  | nil => cases h; rfl
  | cons e es ih =>
    rw [runEvents] at h
    split at h
    · next u hu => rw [List.cons_append, runEvents_cons_next hu]; exact ih h
    · cases h
    · cases h

/-- A read of the window in a core that is not busy. -/
theorem perform_read {off : Nat} {s : State} (h4 : off % 4 = 0) (hw : off < 128) (hb : s.busy = false) :
    perform (.read .word off) s = .next (s.returnRead (busRead off s)) :=
  admitted_of_ok rfl h4 hw (by simp [hb])

/-- A write to a register other than CMD in a core that is not busy. -/
theorem perform_write {off : Nat} {v : Word} {s : State} (h4 : off % 4 = 0) (hw : off < 128) (hc : off ≠ 4)
    (hb : s.busy = false) : perform (.write .word off v) s = .next (busWrite off v s) :=
  (admitted_of_ok rfl h4 hw (by simp [hb])).trans (by rw [if_neg hc])

/-- A CMD write in a core that is not busy. -/
theorem perform_command {v : Word} {s : State} (hb : s.busy = false) :
    perform (.write .word 4 v) s = writeCommand v s :=
  (admitted_of_ok rfl rfl (by decide) (by simp [hb])).trans (if_pos rfl)

/-- The forms of a step that answers a next state: it waited, or the oldest event was a reset, a read, a write of
another register than CMD, a command, or an illegal word. -/
theorem step_forms {s t : State} (h : step s = .next t) :
    t = s ∨
    (∃ rest, s.pending = .reset :: rest ∧ t = (s.withPending rest).cleared) ∨
    (∃ rest off, s.pending = .read .word off :: rest ∧
      t = (s.withPending rest).returnRead (busRead off (s.withPending rest))) ∨
    (∃ rest off v, s.pending = .write .word off v :: rest ∧ off ≠ 4 ∧ s.busy = false ∧
      t = busWrite off v (s.withPending rest)) ∨
    (∃ rest v, s.pending = .write .word 4 v :: rest ∧ s.busy = false ∧
      ((∃ i, decode v = .ok i ∧ exec i ((s.withPending rest).latchCommand v) = .next t) ∨
       (∃ r, decode v = .error r ∧ t = ((s.withPending rest).latchCommand v).raise .illegalCommand))) := by
  rcases step_cases h with ⟨-, rfl⟩ | ⟨e, rest, hp, hpf⟩
  · exact .inl rfl
  · rcases perform_cases hpf with ⟨rfl, rfl⟩ | ⟨off, rfl, -, -, rfl⟩ | ⟨off, v, rfl, -, -, h4, hb, rfl⟩ |
      ⟨v, rfl, hb, hw⟩
    · exact .inr (.inl ⟨rest, hp, rfl⟩)
    · exact .inr (.inr (.inl ⟨rest, off, hp, rfl⟩))
    · exact .inr (.inr (.inr (.inl ⟨rest, off, v, hp, h4, hb, rfl⟩)))
    · exact .inr (.inr (.inr (.inr ⟨rest, v, hp, hb, writeCommand_cases hw⟩)))

/-- What `afterSuccess` answers of a list that completes with code 0. -/
theorem afterSuccess_of_next {es : List HostEvent} {s t : State} (h : runEvents es s = .next t)
    (h0 : t.errCode = 0#4) : afterSuccess es s = some t := by simp [afterSuccess, h, h0]

end Sys2Proof.Machine
end

