-- ==== Sys2Proof/Tests/Slice0.lean ====
section
/-! SUPPORT. Tests of the model against the spec's own tables and traces (95_test_vectors.md, the derived vectors), and
for every obligation with hypotheses a state and operands that meet them. -/

namespace Sys2Proof.Tests

open Sys2Proof Sys2Proof.Machine Sys2Proof.Safety

/-! Helpers. -/

/-- The state a result goes on in. -/
def nextOf : Result → Option State
  | .next t => some t
  | _ => none

/-- Eight bytes from the two words that hold them. -/
def bytes8 (hi lo : Word) : Bytes8 := ⟨unpack32 hi, unpack32 lo⟩

/-- STATUS after a CMD write of `v`. -/
def statusAfter (v : Word) (s : State) : Option Word := (nextOf (writeCommand v s)).map statusWord

/-- After reset, with the given events pending. -/
def withEvents (es : List HostEvent) : State := { State.reset with pending := es }

/-- After KEY_LOAD of `key`. -/
def keyed (key : Bytes8) : State := { State.reset with key := key, w := keySchedule key, keyValid := true }

/-- An open session with key `key`, feedback `fb` and `n`-byte segments. -/
def session (key fb : Bytes8) (n : Nibble) : State :=
  { keyed key with fb := fb, segBytes := n, cfbActive := true }

def keyZ : Bytes8 := Bytes8.zeros

def keyA : Bytes8 := bytes8 0x01234567#32 0x89ABCDEF#32

def testData : Bytes8 := bytes8 0x54455354#32 0x44415441#32

/-! WellFormed: every check refuses an ill-formed term (30_encoding.md R93, R94). -/

theorem test_wf_len_bounds : lenFits 15 = true ∧ lenFits 16 = false := by decide

theorem test_wf_segBits_bounds : segBitsFits 127 = true ∧ segBitsFits 128 = false := by decide

theorem test_wf_refuses_long_len :
    (Instr.keyLoad 16).wellFormed = false ∧ (Instr.encBlock 16).wellFormed = false ∧
    (Instr.decBlock 16).wellFormed = false ∧ (Instr.cfbEncSeg 16).wellFormed = false ∧
    (Instr.cfbDecSeg 16).wellFormed = false := by decide

theorem test_wf_refuses_long_segBits : (Instr.cfbInit 128).wellFormed = false := by decide

/-! Decode: words written out bit by bit from the layout of 30_encoding.md R91 (RSV2 12 bits, LEN 4, RSV1 1,
SEGBITS 7, RSV0 4, OP 4). -/

theorem test_decode_nop : decode 0b00000000000000000000000000000000#32 = .ok .nop := by decide

theorem test_decode_keyLoad : decode 0b00000000000010000000000000000001#32 = .ok (.keyLoad 8) := by decide

theorem test_decode_encBlock : decode 0b00000000000011010000000000000010#32 = .ok (.encBlock 13) := by decide

theorem test_decode_decBlock : decode 0b00000000000010000000000000000011#32 = .ok (.decBlock 8) := by decide

theorem test_decode_cfbInit : decode 0b00000000000000000100110100000100#32 = .ok (.cfbInit 77) := by decide

theorem test_decode_cfbEncSeg : decode 0b00000000000000010000000000000101#32 = .ok (.cfbEncSeg 1) := by decide

theorem test_decode_cfbDecSeg : decode 0b00000000000001100000000000000110#32 = .ok (.cfbDecSeg 6) := by decide

theorem test_decode_clear : decode 0b00000000000000000000000000000111#32 = .ok .clear := by decide

/-- The legal rows of 95_test_vectors.md section 2.6. -/
theorem test_decode_table_legal :
    decode 0x00000001#32 = .ok (.keyLoad 0) ∧ decode 0x000F0002#32 = .ok (.encBlock 15) ∧
    decode 0x00000004#32 = .ok (.cfbInit 0) ∧ decode 0x00000C04#32 = .ok (.cfbInit 12) ∧
    decode 0x00004804#32 = .ok (.cfbInit 72) ∧ decode 0x00007F04#32 = .ok (.cfbInit 127) ∧
    decode 0x00004004#32 = .ok (.cfbInit 64) ∧ decode 0x00090005#32 = .ok (.cfbEncSeg 9) := by decide

/-- The illegal rows of 95_test_vectors.md section 2.6, by reason. -/
theorem test_decode_table_illegal :
    [0x00000014#32, 0x00080004#32, 0x00008004#32, 0x00100002#32, 0x00010000#32, 0x00000107#32, 0x00080007#32,
      0x80000000#32].map decode = List.replicate 8 (.error .nonzeroUnusedField) ∧
    [0x00000008#32, 0x0000000F#32].map decode = List.replicate 2 (.error .reservedOpcode) := by decide

theorem test_decodeTableWord :
    decodeTableWord 32 0x00080001 = some (.keyLoad 8) ∧ decodeTableWord 32 0x8 = none := by decide

/-! Primitives (95_test_vectors.md section 2.1; 40_primitives.md R131). -/

theorem test_rol2 :
    [0x00#8, 0x01#8, 0x0B#8, 0x3F#8, 0x40#8, 0x55#8, 0x80#8, 0xAA#8, 0xC0#8, 0xFF#8].map rol2 =
      [0x00#8, 0x04#8, 0x2C#8, 0xFC#8, 0x01#8, 0x55#8, 0x02#8, 0xAA#8, 0x03#8, 0xFF#8] := by decide

theorem test_s0_s1 :
    s0 0x7F#8 0x80#8 = 0xFF#8 ∧ s1 0x7F#8 0x80#8 = 0x00#8 ∧ s0 0x12#8 0x34#8 = 0x19#8 ∧
    s1 0x12#8 0x34#8 = 0x1D#8 ∧ s0 0xFF#8 0xFF#8 = 0xFB#8 ∧ s1 0xFF#8 0xFF#8 = 0xFF#8 := by decide

theorem test_roundF :
    roundF (unpack32 0x80000000#32) = unpack32 0x1A061864#32 ∧
    roundF (unpack32 0x00000080#32) = unpack32 0x18061A6E#32 ∧
    roundF (unpack32 0x12345678#32) = unpack32 0x9D550E1E#32 ∧
    roundF (unpack32 0xA5A5A5A5#32) = unpack32 0xA60410DA#32 := by decide

theorem test_roundFK :
    roundFK (unpack32 0x00000000#32) (unpack32 0x01000000#32) = unpack32 0x20082084#32 ∧
    roundFK (unpack32 0x00000000#32) (unpack32 0x00000001#32) = unpack32 0x10041048#32 := by decide

theorem test_lut_row_of_spec : rol2FromLut 0x4F#8 = 0x3D#8 ∧ rol2FromLut 0x80#8 = 0x02#8 := by decide

/-! Key schedule and block transform (95_test_vectors.md sections 2.2, 2.3). -/

theorem test_keySchedule_low_bit :
    keySchedule (bytes8 0x00000000#32 0x00000001#32) =
      ⟨unpack32 0x10041048#32, unpack32 0x614835FD#32, unpack32 0x70392790#32, unpack32 0x774BF878#32,
        unpack32 0x4BAF8D66#32, unpack32 0x03E3D76A#32⟩ := by decide

theorem test_keySchedule_text :
    keySchedule testData =
      ⟨unpack32 0x55556C0A#32, unpack32 0x6E6836AA#32, unpack32 0xB2350AB3#32, unpack32 0x6B0A1831#32,
        unpack32 0xC711B07F#32, unpack32 0xAEFA1C08#32⟩ := by decide

theorem test_encryptBlock :
    encryptBlock keyA (keySchedule keyA) = bytes8 0x866F6796#32 0x0E332CD1#32 ∧
    encryptBlock (bytes8 0xFFFFFFFF#32 0xFFFFFFFF#32) (keySchedule (bytes8 0xFFFFFFFF#32 0xFFFFFFFF#32)) =
      bytes8 0x0732CE44#32 0x9D728FDA#32 ∧
    encryptBlock Bytes8.zeros (keySchedule (bytes8 0x80000000#32 0#32)) = bytes8 0xB187E372#32 0x58BBBF1C#32 := by
  decide

theorem test_decryptBlock :
    decryptBlock Bytes8.zeros (keySchedule keyA) = bytes8 0xCB2B00A1#32 0x4D271DA6#32 ∧
    decryptBlock (bytes8 0xFFFFFFFF#32 0xFFFFFFFF#32) (keySchedule keyZ) = bytes8 0x5C0D995B#32 0x698864C2#32 := by
  decide

/-- 42_block_transform.md R188: EncryptBlock is not the identity; rows B1, B6 and B7. -/
theorem test_encryptBlock_not_identity :
    encryptBlock Bytes8.zeros (keySchedule keyZ) = bytes8 0xE86C3633#32 0xA90EF50F#32 ∧
    encryptBlock (bytes8 0#32 1#32) (keySchedule keyZ) = bytes8 0x6316FC0E#32 0x4DF6E052#32 ∧
    encryptBlock (bytes8 0x80000000#32 0#32) (keySchedule keyZ) = bytes8 0x578069F9#32 0x6BA34ED4#32 := by decide

theorem test_trimLen :
    trimLen Bytes8.zeros = 0 ∧ trimLen (bytes8 0x41000000#32 0#32) = 1 ∧ trimLen (bytes8 0#32 1#32) = 8 ∧
    trimLen (bytes8 0xFF00FF00#32 0#32) = 3 := by decide

/-! Commands: STATUS after each (95_test_vectors.md section 2.7). -/

theorem test_status_of_errors_from_reset :
    statusAfter 0x00080002#32 State.reset = some 0x00000510#32 ∧
    statusAfter 0x00080003#32 State.reset = some 0x00000510#32 ∧
    statusAfter 0x00004004#32 State.reset = some 0x00000510#32 ∧
    statusAfter 0x00000C04#32 State.reset = some 0x00000210#32 ∧
    statusAfter 0x00000002#32 State.reset = some 0x00000410#32 ∧
    statusAfter 0x00010005#32 State.reset = some 0x00000610#32 ∧
    statusAfter 0x00000006#32 State.reset = some 0x00000610#32 ∧
    statusAfter 0x00070001#32 State.reset = some 0x00000110#32 ∧
    statusAfter 0x00000008#32 State.reset = some 0x00000310#32 := by decide

theorem test_keyLoad_status : statusAfter 0x00080001#32 State.reset = some 0x00000002#32 := by decide

/-- KEY_LOAD closes an open session and leaves OUT_LEN. -/
theorem test_keyLoad_closes_session :
    statusAfter 0x00080001#32 { session keyZ keyZ 8#4 with outLen := 8#4 } = some 0x00008002#32 := by decide

/-- NOP clears ERR_CODE and leaves ERR. -/
theorem test_nop_keeps_err :
    statusAfter 0x00000000#32 { State.reset with err := true, errCode := 3#4 } = some 0x00000010#32 := by decide

theorem test_clear_state :
    nextOf (exec .clear { session keyA keyA 4#4 with err := true, errCode := 7#4, cmd := 7#32, dout := keyA }) =
      some State.reset := by decide

/-- 95_test_vectors.md section 2.3.2, LEN = 3: the bytes of DIN past LEN are ignored. -/
theorem test_encBlock_short :
    (nextOf (exec (.encBlock 3) { keyed keyA with din := bytes8 0x41424399#32 0xAABBCCDD#32 })).map
        (fun t => (t.dout, t.outLen)) = some (bytes8 0x792C7D99#32 0x3988C2E6#32, 8#4) := by decide

theorem test_encBlock_len7 :
    (nextOf (exec (.encBlock 7) { keyed keyA with din := testData })).map State.dout =
      some (bytes8 0x6AA3DCE0#32 0xCE9383DD#32) := by decide

/-- 95_test_vectors.md section 2.3.2, row B9: five bytes are left. -/
theorem test_decBlock_out_len :
    (nextOf (exec (.decBlock 8) { keyed keyA with din := bytes8 0xE10041A6#32 0x568C56ED#32 })).map
        (fun t => (t.dout, t.outLen)) = some (bytes8 0x41424344#32 0x45000000#32, 5#4) := by decide

/-- Program P4: CFB_INIT SEG=16 after earlier errors. -/
theorem test_cfbInit_status :
    statusAfter 0x00001004#32 { keyed keyZ with err := true, errCode := 2#4 } = some 0x00020016#32 := by decide

/-- CFB_INIT reopens an ended session (43_cfb.md R212). -/
theorem test_cfbInit_reopens :
    (nextOf (exec (.cfbInit 24) { session keyA keyZ 4#4 with cfbEnded := true, din := keyA })).map
        (fun t => (t.fb, t.segBytes, t.cfbActive, t.cfbEnded)) = some (keyA, 3#4, true, false) := by decide

/-- 95_test_vectors.md section 2.4.4, segment 2: a partial segment. -/
theorem test_cfbEncSeg_partial :
    (nextOf (exec (.cfbEncSeg 2) { session keyA (bytes8 0xF0EAEE9B#32 0xB2061F51#32) 4#4 with
        din := bytes8 0x494AFFFF#32 0x76543210#32 })).map (fun t => (t.dout, t.fb, t.cfbEnded, t.outLen)) =
      some (bytes8 0x6B3E0000#32 0#32, bytes8 0xEE9BB206#32 0x1F516B3E#32, true, 2#4) := by decide

/-- 95_test_vectors.md section 2.4.2, segment 9: one byte at a time. -/
theorem test_cfbEncSeg_one_byte :
    (nextOf (exec (.cfbEncSeg 1) { session keyZ (bytes8 0x4E0C894C#32 0x51405734#32) 1#4 with
        din := bytes8 0x45000000#32 0#32 })).map (fun t => (t.dout, t.fb, t.cfbEnded)) =
      some (bytes8 0xC0000000#32 0#32, bytes8 0x0C894C51#32 0x405734C0#32, false) := by decide

/-- 95_test_vectors.md section 2.4.3, segment 1, decrypted: the ciphertext enters FB. -/
theorem test_cfbDecSeg_three_bytes :
    (nextOf (exec (.cfbDecSeg 3) { session keyA (bytes8 0x98765432#32 0x10F9EDE1#32) 3#4 with
        din := bytes8 0x8C4A2100#32 0#32 })).map (fun t => (t.dout, t.fb)) =
      some (bytes8 0x4C4F2C00#32 0#32, bytes8 0x3210F9ED#32 0xE18C4A21#32) := by decide

/-- The ended session of program P5. -/
theorem test_cfbDecSeg_ended :
    statusAfter 0x00090006#32 { session keyA keyZ 4#4 with cfbEnded := true, outLen := 2#4 } =
      some 0x0004271E#32 := by decide

/-! Host register access (95_test_vectors.md section 2.8). -/

theorem test_read_of_id_status_reserved :
    busRead 0x00 (keyed keyA) = 0x46454134#32 ∧ busRead 0x08 State.reset = 0#32 ∧
    busRead 0x0C (keyed keyA) = 0#32 ∧ busRead 0x7C (keyed keyA) = 0#32 ∧
    busRead 0x44 (keyed keyA) = 0xAC509D4C#32 := by decide

theorem test_ignored_writes :
    busWrite 0x08 0xFFFFFFFF#32 (keyed keyZ) = keyed keyZ ∧ busWrite 0x30 0x12345678#32 (keyed keyZ) = keyed keyZ ∧
    busWrite 0x20 0x12345678#32 (keyed keyZ) = keyed keyZ ∧ busWrite 0x28 0x12345678#32 (keyed keyZ) = keyed keyZ := by
  decide

theorem test_key_write_leaves_subkeys :
    busRead 0x10 (busWrite 0x10 0x01234567#32 (keyed keyZ)) = 0x01234567#32 ∧
    busRead 0x30 (busWrite 0x10 0x01234567#32 (keyed keyZ)) = 0x10041044#32 := by decide

theorem test_cmd_after_illegal_word :
    (nextOf (writeCommand 0x00000008#32 State.reset)).map (busRead 0x04) = some 0x00000008#32 := by decide

/-- The host's placement of a command word: the very next step runs it. -/
theorem test_withFetchWord :
    (nextOf (step (State.reset.withFetchWord 32 0x00080001))).map (fun t => (t.keyValid, t.pending)) =
      some (true, []) := by decide

/-- 43_cfb.md R218 to R220 on 95_test_vectors.md section 2.4.7: a partial last segment of zero bytes. -/
theorem test_stream_zero_tail :
    cfbEncrypt keyA (bytes8 0xFEDCBA98#32 0x76543210#32) [0x41#8, 0#8, 0#8] 16 State.reset =
      some [0xF0#8, 0xA8#8, 0x2D#8] := by decide

/-! Witnesses: for each obligation with hypotheses, what meets them all, at the ends of their ranges. -/

theorem test_hyp_DecodeEncodeRoundTrip :
    Instr.nop.wellFormed = true ∧ (Instr.keyLoad 0).wellFormed = true ∧ (Instr.encBlock 15).wellFormed = true ∧
    (Instr.cfbInit 0).wellFormed = true ∧ (Instr.cfbInit 127).wellFormed = true := by decide

theorem test_hyp_EncodeDecodeRoundTrip :
    decode 0x000F0006#32 = .ok (.cfbDecSeg 15) ∧ decode 0x00007F04#32 = .ok (.cfbInit 127) := by decide

theorem test_hyp_OpcodeTableMatchesWords :
    ∀ r ∈ [(0x00000000#32, 0xFFFFFFFF#32), (0x00000001#32, 0xFFF0FFFF#32), (0x00000002#32, 0xFFF0FFFF#32),
        (0x00000003#32, 0xFFF0FFFF#32), (0x00000004#32, 0xFFFF80FF#32), (0x00000005#32, 0xFFF0FFFF#32),
        (0x00000006#32, 0xFFF0FFFF#32), (0x00000007#32, 0xFFFFFFFF#32)],
      0x00008004#32 &&& r.2 ≠ (r.1 : Word) := by
  intro r hr
  simp only [List.mem_cons, List.not_mem_nil, or_false] at hr
  rcases hr with rfl | rfl | rfl | rfl | rfl | rfl | rfl | rfl <;> decide

theorem test_hyp_IllegalWordsRaise :
    8 ≤ ((0x00000008#32).extractLsb' 0 4).toNat ∧ (0x00000010#32).extractLsb' 4 4 ≠ 0#4 ∧
    (0x00008004#32).extractLsb' 15 1 ≠ 0#1 ∧ (0x80000000#32).extractLsb' 20 12 ≠ 0#12 ∧
    ((0x00000107#32).extractLsb' 0 4 ≠ 4#4 ∧ (0x00000107#32).extractLsb' 8 7 ≠ 0#7) ∧
    ((0x00010000#32).extractLsb' 0 4 = 0#4 ∧ (0x00010000#32).extractLsb' 16 4 ≠ 0#4) ∧
    ((0x00080004#32).extractLsb' 0 4 = 4#4 ∧ (0x00080004#32).extractLsb' 16 4 ≠ 0#4) ∧
    ((0x00080007#32).extractLsb' 0 4 = 7#4 ∧ (0x00080007#32).extractLsb' 16 4 ≠ 0#4) :=
  by decide

theorem test_hyp_StepRunsDecodedCommand :
    (withEvents [.write .word 0x04 0x00080001#32]).busy = false ∧
    (withEvents [.write .word 0x04 0x00080001#32]).pending = .write .word 0x04 0x00080001#32 :: [] ∧
    decode 0x00080001#32 = .ok (.keyLoad 8) ∧ (∀ i, decode 0x00000009#32 ≠ .ok i) :=
  ⟨rfl, rfl, by decide, fun i h => by
    have e : decode 0x00000009#32 = .error .reservedOpcode := by decide
    rw [e] at h; cases h⟩

theorem test_hyp_AccessesTakeEffectInOrder : State.reset.pending = [] := rfl

theorem test_hyp_MalformedAccessRefused :
    (withEvents [.read .byte 0]).pending = .read .byte 0 :: [] ∧ (0 < 128 ∧ AccessWidth.byte ≠ .word) ∧
    (withEvents [.write .word 127 0#32]).pending = .write .word 127 0#32 :: [] ∧ (127 < 128 ∧ 127 % 4 ≠ 0) :=
  ⟨rfl, by decide, rfl, by decide⟩

theorem test_hyp_BusyAdmitsOnlyStatusReads :
    let busy (es : List HostEvent) : State := { withEvents es with busy := true }
    (busy [.read .word 0x08]).busy = true ∧ (busy [.read .word 0x08]).pending = .read .word 0x08 :: [] ∧
    (∀ off, (busy [.read .word off]).pending = .read .word off :: []) ∧ 0x00 % 4 = 0 ∧ 0x7C % 4 = 0 ∧ 0x7C < 128 ∧
    (∀ off v, (busy [.write .word off v]).pending = .write .word off v :: []) :=
  ⟨rfl, rfl, fun _ => rfl, rfl, rfl, by decide, fun _ _ => rfl⟩

theorem test_hyp_WindowAddressesReachTheCore :
    0 < 128 ∧ 127 < 128 ∧ Config.base + 128 ≤ Config.base + 128 ∧
    (withEvents [.read .word 128]).pending = .read .word 128 :: [] ∧
    (withEvents [.write .word 128 0#32]).pending = .write .word 128 0#32 :: [] :=
  ⟨by decide, by decide, Nat.le_refl _, rfl, rfl⟩

theorem test_hyp_RegisterMapReads :
    0x0C % 4 = 0 ∧ 0x48 % 4 = 0 ∧ 0x7C % 4 = 0 ∧ 0x48 ≤ 0x48 ∧ 0x7C < 128 ∧ State.reset.busy = false := by decide

theorem test_hyp_RegisterMapWrites :
    (∀ off ∈ [0x10, 0x14, 0x18, 0x1C, 0x04], off % 4 = 0 ∧ off < 128) ∧
    (∀ off ∈ [0x00, 0x08, 0x0C, 0x20, 0x7C], off % 4 = 0 ∧ off < 128 ∧ off ≠ 0x10 ∧ off ≠ 0x14 ∧ off ≠ 0x18 ∧
      off ≠ 0x1C ∧ off ≠ 0x04) ∧ State.reset.busy = false := by decide

theorem test_hyp_OperandRegistersReadBack :
    (∀ off ∈ [0x10, 0x14, 0x18, 0x1C], off = 0x10 ∨ off = 0x14 ∨ off = 0x18 ∨ off = 0x1C) ∧ 0x14 ≠ 0x10 := by
  decide

theorem test_hyp_ClearEqualsReset :
    0x7C ≠ 0x00 ∧ (0x00000107#32).extractLsb' 0 4 = 7#4 ∧ 0x00000107#32 ≠ 0x00000007#32 := by decide

/-- The trace of 40_primitives.md R131, and 95_test_vectors.md's FK row with b = FF FF FF FF. -/
theorem test_hyp_RoundFunctionStages :
    0x2C#8 = s1 (0x01#8 ^^^ 0x02#8) (0x03#8 ^^^ 0x04#8) ∧ 0xCC#8 = s0 (0x03#8 ^^^ 0x04#8) 0x2C#8 ∧
    0x00#8 = s1 (0x00#8 ^^^ 0x00#8) ((0x00#8 ^^^ 0x00#8) ^^^ 0xFF#8) ∧
    0xFF#8 = s0 (0x00#8 ^^^ 0x00#8) (0x00#8 ^^^ 0xFF#8) := by decide

theorem test_hyp_KeyScheduleClosedForm :
    (⟨unpack32 0xDF3BCA36#32, unpack32 0xF17C1AEC#32, unpack32 0x45A5B9C7#32, unpack32 0x26EBAD25#32,
      unpack32 0x8B2AECB7#32, unpack32 0xAC509D4C#32⟩ : SubkeyFile) = keySchedule keyA := by decide

theorem test_hyp_KeyLoadResult :
    7 ≠ 8 ∧ 9 ≠ 8 ∧ (∃ t, exec (.keyLoad 8) State.reset = .next t) ∧
    (keyed keyA).key = ⟨unpack32 0x01234567#32, unpack32 0x89ABCDEF#32⟩ :=
  ⟨by decide, by decide, ⟨_, rfl⟩, rfl⟩

theorem test_hyp_SubkeysChangeOnlyAtLoadClearReset :
    (∃ t, step (withEvents [.write .word 0x04 0x00080001#32]) = .next t ∧ t.w ≠ SubkeyFile.zeros) ∧
    ∃ n, Instr.encBlock 8 = .encBlock n ∨ Instr.encBlock 8 = .decBlock n ∨ Instr.encBlock 8 = .cfbEncSeg n ∨
      Instr.encBlock 8 = .cfbDecSeg n :=
  ⟨⟨_, rfl, by decide⟩, 8, .inl rfl⟩

theorem test_hyp_StepKeepsSubkeysOfAKey :
    SubkeysOfAKey { keyed keyA with pending := [.write .word 0x04 7#32] } ∧
    SubkeysOfAKey (withEvents [.write .word 0x04 0x00080001#32]) ∧
    (∃ t, step { keyed keyA with pending := [.write .word 0x04 7#32] } = .next t) ∧
    (∃ t, step (withEvents [.write .word 0x04 0x00080001#32]) = .next t) :=
  ⟨⟨fun _ => ⟨keyA, rfl⟩, fun h => (by cases h)⟩, ⟨fun h => (by cases h), fun _ => rfl⟩, ⟨_, rfl⟩, ⟨_, rfl⟩⟩

/-- The trace of 95_test_vectors.md section 2.3.1 with the key 0123456789ABCDEF. -/
theorem test_hyp_EncryptBlockRounds :
    let w := keySchedule keyA
    let l0 := unpack32 0x277A71FB#32
    let r0 := unpack32 0xAC509D4C#32
    let r1 := unpack32 0x156368A9#32
    let r2 := unpack32 0x6E9C9105#32
    let r3 := unpack32 0x9D94EF80#32
    let r4 := unpack32 0xDB2EF735#32
    r0 = xor4 Bytes4.zeros w.w5 ∧ l0 = xor4 (xor4 Bytes4.zeros w.w4) r0 ∧
    r1 = xor4 l0 (roundF (xor4 r0 w.w0)) ∧ r2 = xor4 r0 (roundF (xor4 r1 w.w1)) ∧
    r3 = xor4 r1 (roundF (xor4 r2 w.w2)) ∧ r4 = xor4 r2 (roundF (xor4 r3 w.w3)) := by decide

/-- The same trace, from the ciphertext. -/
theorem test_hyp_DecryptBlockRounds :
    let w := keySchedule keyA
    let c := bytes8 0xDB2EF735#32 0x46BA18B5#32
    let l0 := unpack32 0x277A71FB#32
    let r0 := unpack32 0xAC509D4C#32
    let r1 := unpack32 0x156368A9#32
    let r2 := unpack32 0x6E9C9105#32
    let r3 := unpack32 0x9D94EF80#32
    r3 = xor4 c.right c.left ∧ r2 = xor4 c.left (roundF (xor4 r3 w.w3)) ∧
    r1 = xor4 r3 (roundF (xor4 r2 w.w2)) ∧ r0 = xor4 r2 (roundF (xor4 r1 w.w1)) ∧
    l0 = xor4 r1 (roundF (xor4 r0 w.w0)) := by decide

theorem test_hyp_PadKeepsLeadingBytes :
    1 ≤ 1 ∧ 8 ≤ 8 ∧
    ∀ i, i < 3 → byteAt (list8 (bytes8 0x414243FF#32 0xFFFFFFFF#32)) i =
      byteAt (list8 (bytes8 0x41424399#32 0xAABBCCDD#32)) i := by decide

theorem test_hyp_TrimLenStripsTrailingZeros :
    (trimLen (bytes8 0x41000000#32 0#32) ≤ 1 ∧ 0 < trimLen (bytes8 0x41000000#32 0#32)) ∧
    byteAt (list8 (bytes8 0#32 1#32)) 7 ≠ 0x00#8 ∧ Bytes8.zeros = bytes8 0#32 0#32 := by decide

theorem test_hyp_EncBlockResult :
    (keyed keyZ).keyValid = true ∧ State.reset.keyValid = false ∧ (1 ≤ 1 ∧ 8 ≤ 8) ∧ (0 < 1 ∧ 8 < 9) ∧
    ({ keyed keyZ with din := testData } : State).w = keySchedule Bytes8.zeros ∧
    ({ keyed keyZ with din := testData } : State).din = ⟨unpack32 0x54455354#32, unpack32 0x44415441#32⟩ :=
  ⟨rfl, rfl, by decide, by decide, rfl, rfl⟩

theorem test_hyp_DecBlockResult :
    (keyed keyA).keyValid = true ∧ State.reset.keyValid = false ∧ (7 ≠ 8 ∧ 9 ≠ 8) ∧ (1 ≤ 1 ∧ 8 ≤ 8) ∧
    (keyed keyA).w = keySchedule ⟨unpack32 0x01234567#32, unpack32 0x89ABCDEF#32⟩ ∧
    ({ keyed keyA with din := bytes8 0x792C7D99#32 0x3988C2E6#32 } : State).din =
      ⟨unpack32 0x792C7D99#32, unpack32 0x3988C2E6#32⟩ :=
  ⟨rfl, rfl, by decide, by decide, rfl, rfl⟩

theorem test_hyp_BlockCommandsIgnoreTheSession :
    (∃ n, Instr.encBlock 8 = .encBlock n) ∧ (∃ n, Instr.decBlock 8 = .decBlock n) ∧
    (session keyA keyZ 8#4).din = (keyed keyA).din ∧ (session keyA keyZ 8#4).w = (keyed keyA).w ∧
    (session keyA keyZ 8#4).keyValid = (keyed keyA).keyValid := ⟨⟨8, rfl⟩, ⟨8, rfl⟩, rfl, rfl, rfl⟩

theorem test_hyp_ValidSegmentSizes :
    validSeg 8 = true ∧ validSeg 64 = true ∧ validSeg 0 = false ∧ validSeg 12 = false ∧ validSeg 72 = false := by
  decide

theorem test_hyp_CfbInitResult :
    (keyed keyA).keyValid = true ∧ State.reset.keyValid = false ∧ validSeg 64 = true ∧ validSeg 12 = false ∧
    (keyed keyA).busy = false := ⟨rfl, rfl, by decide, by decide, rfl⟩

theorem test_hyp_ShiftFeedbackBytes :
    (1 ≤ 1 ∧ [0xBC#8].length = 1) ∧ 8 ≤ 8 ∧ (list8 keyA).length = 8 := by decide

/-- For SegmentOutputBytes, CfbEncSegResult and CfbDecSegResult: a segment of full length, one of length 1, and the
state of each error. -/
theorem test_hyp_segment_commands :
    (session keyZ keyZ 8#4).cfbActive = true ∧ (session keyZ keyZ 8#4).cfbEnded = false ∧
    (1 ≤ 1 ∧ 8 ≤ (8#4 : Nibble).toNat ∧ (8#4 : Nibble).toNat ≤ 8) ∧
    (session keyZ Bytes8.zeros 8#4).fb = Bytes8.zeros ∧ (session keyZ keyZ 8#4).w = keySchedule Bytes8.zeros ∧
    State.reset.cfbActive = false ∧ (0 < 1 ∧ (8#4 : Nibble).toNat < 9) ∧
    ({ session keyZ keyZ 8#4 with din := testData } : State).din =
      ⟨unpack32 0x54455354#32, unpack32 0x44415441#32⟩ ∧
    ({ session keyZ keyZ 8#4 with din := bytes8 0xBC296567#32 0xED4FA14E#32 } : State).din =
      ⟨unpack32 0xBC296567#32, unpack32 0xED4FA14E#32⟩ ∧
    ({ session keyZ keyZ 8#4 with cfbEnded := true } : State).cfbEnded = true :=
  ⟨rfl, rfl, by decide, rfl, rfl, rfl, by decide, rfl, rfl, rfl⟩

theorem test_hyp_segment_of_the_input :
    ∃ C : List Byte, C = xorSeq ((list8 testData).take 3) ((list8 (encryptBlock keyZ (keySchedule keyZ))).take 3) ∧
      ∃ D : List Byte, D = (list8 testData).take 3 ∧
        ∃ d : Bytes8, d ≠ testData ∧ ∀ k, k < 3 → byteAt (list8 d) k = byteAt (list8 testData) k :=
  ⟨_, rfl, _, rfl, bytes8 0x54455300#32 0#32, by decide, by decide⟩

/-- The invariants hold of an open session, of a keyed core and of an ended session. -/
theorem test_hyp_EngineInv :
    EngineInv (session keyA keyZ 4#4) ∧ EngineInv (keyed keyA) ∧
    EngineInv { session keyA keyZ 8#4 with cfbEnded := true, outLen := 8#4, errCode := 7#4, err := true } :=
  ⟨⟨by decide, by decide, by decide, by decide, by decide, by decide, rfl⟩,
    ⟨by decide, by decide, by decide, by decide, by decide, by decide, rfl⟩,
    ⟨by decide, by decide, by decide, by decide, by decide, by decide, rfl⟩⟩

theorem test_hyp_PartialSegmentEndsTheSession :
    EngineInv (session keyA keyZ 8#4) ∧ (1 ≤ 1 ∧ 7 < (session keyA keyZ 8#4).segBytes.toNat) ∧
    (∃ t, step { session keyA keyZ 8#4 with cfbEnded := true, pending := [.write .word 0x04 0x00080001#32] } =
      .next t ∧ t.cfbEnded = false) ∧
    (∃ t, step { session keyA keyZ 8#4 with cfbEnded := true, pending := [.write .word 0x04 0x00080005#32] } =
      .next t ∧ t.cfbEnded = true) :=
  ⟨⟨by decide, by decide, by decide, by decide, by decide, by decide, rfl⟩, by decide, ⟨_, rfl, rfl⟩, ⟨_, rfl, rfl⟩⟩

/-- For CfbStreamRoundTrip, CfbStreamKeepsLength and CfbStreamEdgeCases: an idle core, and a valid and a bad size. -/
theorem test_hyp_streams :
    State.reset.busy = false ∧ validSeg 8 = true ∧ validSeg 64 = true ∧ validSeg 127 = false ∧
    validSeg 128 = false := by decide

theorem test_hyp_SessionSaveAndRestore :
    EngineInv (session keyA keyA 3#4) ∧ (session keyA keyA 3#4).cfbActive = true ∧
    (session keyA keyA 3#4).cfbEnded = false ∧ (keyed keyA).busy = false ∧ (keyed keyA).keyValid = true ∧
    (keyed keyA).w = (session keyA keyA 3#4).w :=
  ⟨⟨by decide, by decide, by decide, by decide, by decide, by decide, rfl⟩, rfl, rfl, rfl, rfl, rfl⟩

theorem test_hyp_CfbSelfSynchronises :
    EngineInv (session keyA keyA 3#4) ∧ EngineInv (session keyA keyZ 3#4) ∧
    (session keyA keyA 3#4).cfbActive = true ∧ (session keyA keyZ 3#4).cfbActive = true ∧
    (session keyA keyA 3#4).cfbEnded = false ∧ (session keyA keyZ 3#4).cfbEnded = false ∧
    (session keyA keyA 3#4).segBytes = (session keyA keyZ 3#4).segBytes ∧
    (session keyA keyA 3#4).w = (session keyA keyZ 3#4).w ∧ keyA ≠ keyZ ∧
    (8 + (session keyA keyA 3#4).segBytes.toNat - 1) / (session keyA keyA 3#4).segBytes.toNat ≤
      [keyA, keyZ, testData].length :=
  ⟨⟨by decide, by decide, by decide, by decide, by decide, by decide, rfl⟩,
    ⟨by decide, by decide, by decide, by decide, by decide, by decide, rfl⟩, rfl, rfl, rfl, rfl, rfl, rfl, by decide,
    by decide⟩

theorem test_hyp_NopResult :
    (0x00000100#32).extractLsb' 0 4 = 0#4 ∧ 0x00000100#32 ≠ 0x00000000#32 := by decide

theorem test_hyp_FailureWritesOnlyTheError :
    (∃ t, exec (.keyLoad 7) State.reset = .next t ∧ t.errCode ≠ 0#4) ∧
    (∃ t, writeCommand 0x0000000F#32 State.reset = .next t ∧ t.errCode ≠ 0#4) :=
  ⟨⟨_, rfl, by decide⟩, ⟨_, rfl, by decide⟩⟩

theorem test_hyp_ErrorPriority :
    (∀ i, decode 0x0000000F#32 ≠ .ok i) ∧ State.reset.keyValid = false :=
  ⟨fun i h => (by
    have e : decode 0x0000000F#32 = .error .reservedOpcode := by decide
    rw [e] at h; cases h), rfl⟩

theorem test_hyp_ErrIsSticky :
    ∃ t, step { withEvents [.write .word 0x04 0x00000000#32] with err := true } = .next t ∧ t.err = true :=
  ⟨_, rfl, rfl⟩

theorem test_hyp_StepKeepsEngineInv :
    EngineInv { session keyA keyZ 4#4 with pending := [.write .word 0x04 0x00020005#32] } ∧
    ∃ t, step { session keyA keyZ 4#4 with pending := [.write .word 0x04 0x00020005#32] } = .next t ∧
      t.cfbEnded = true :=
  ⟨⟨by decide, by decide, by decide, by decide, by decide, by decide, rfl⟩, ⟨_, rfl, rfl⟩⟩

theorem test_hyp_OutputChangesOnlyByOutputCommands :
    ∃ t, step { keyed keyA with pending := [.write .word 0x04 0x00080002#32] } = .next t ∧ t.outLen = 8#4 :=
  ⟨_, rfl, rfl⟩

theorem test_hyp_OperandAndFeedbackWriters :
    ∃ t, step (withEvents [.write .word 0x10 0x01234567#32]) = .next t ∧ t.key ≠ Bytes8.zeros :=
  ⟨_, rfl, by decide⟩

theorem test_hyp_BehavedHostNeverStopsTheCore :
    hostBehaves (withEvents [.read .word 0x7C, .write .word 0x04 0xFFFFFFFF#32, .reset]) = true ∧
    (withEvents [.read .word 0x7C, .write .word 0x04 0xFFFFFFFF#32, .reset]).busy = false := ⟨by decide, rfl⟩

theorem test_hyp_StepKeepsOutputPadded :
    EngineInv { keyed keyA with pending := [.write .word 0x04 0x00080003#32] } ∧
    OutputPadded { keyed keyA with pending := [.write .word 0x04 0x00080003#32] } ∧
    ∃ t, step { keyed keyA with pending := [.write .word 0x04 0x00080003#32] } = .next t :=
  ⟨⟨by decide, by decide, by decide, by decide, by decide, by decide, rfl⟩, by
    have h : ∀ i, i < 8 → byteAt (list8 Bytes8.zeros) i = 0#8 := by decide
    exact fun i _ hi => h i hi, ⟨_, rfl⟩⟩

theorem test_hyp_PseudoOperationsRun :
    (keyed keyA).busy = false ∧ (keyed keyA).keyValid = true ∧ validSeg 8 = true ∧ validSeg 64 = true :=
  ⟨rfl, rfl, by decide, by decide⟩

theorem test_hyp_CommandLatencies :
    (∃ t, writeCommand 0x00070001#32 State.reset = .next t ∧ t.errCode ≠ 0#4) ∧
    (∃ t, writeCommand 0x00080001#32 State.reset = .next t ∧ t.errCode = 0#4) ∧
    (∃ t, writeCommand 0x00080002#32 (keyed keyA) = .next t ∧ t.errCode = 0#4) ∧
    (∃ t, writeCommand 0x00080005#32 (session keyA keyZ 8#4) = .next t ∧ t.errCode = 0#4) ∧
    (∃ t, writeCommand 0x00000007#32 State.reset = .next t ∧ t.errCode = 0#4) :=
  ⟨⟨_, rfl, by decide⟩, ⟨_, rfl, rfl⟩, ⟨_, rfl, rfl⟩, ⟨_, rfl, rfl⟩, ⟨_, rfl, rfl⟩⟩

end Sys2Proof.Tests
end

/-! The statements of 00_scope.md: `pack32` and `unpack32` (R19), and which platform addresses and which events reach
the register window (R15, R21; 20_memory.md R60). -/

namespace Sys2Proof.Machine

/-- The shifted bytes of `pack32` do not overlap, so it concatenates its bytes, byte 0 on top (00_scope.md R19). -/
theorem pack32_eq_append (b : Bytes4) : pack32 b = b.b0 ++ b.b1 ++ b.b2 ++ b.b3 := by
  rw [← BitVec.setWidth_eq (b.b0 ++ b.b1 ++ b.b2 ++ b.b3),
    BitVec.setWidth_append_append_append_eq_shiftLeft_setWidth_or, pack32]

theorem toNat_append_eq_mul_add {m n : Nat} (x : BitVec m) (y : BitVec n) :
    (x ++ y).toNat = x.toNat * 2 ^ n + y.toNat := by
  rw [BitVec.toNat_append, ← Nat.shiftLeft_add_eq_or_of_lt y.isLt, Nat.shiftLeft_eq]

theorem toNat_pack32 (b : Bytes4) : (pack32 b).toNat =
    b.b0.toNat * 2 ^ 24 + b.b1.toNat * 2 ^ 16 + b.b2.toNat * 2 ^ 8 + b.b3.toNat := by
  simp only [pack32_eq_append, toNat_append_eq_mul_add]
  omega

/-- Each place that `unpack32` reads is one part of the concatenation. -/
@[simp] theorem unpack32_pack32 (b : Bytes4) : unpack32 (pack32 b) = b := by
  have h0 : (pack32 b).extractLsb' 24 8 = b.b0 := by
    rw [pack32_eq_append, BitVec.extractLsb'_append_eq_of_le (by decide),
      BitVec.extractLsb'_append_eq_of_le (by decide)]
    exact BitVec.extractLsb'_append_eq_left
  have h1 : (pack32 b).extractLsb' 16 8 = b.b1 := by
    rw [pack32_eq_append, BitVec.extractLsb'_append_eq_of_le (by decide),
      BitVec.extractLsb'_append_eq_of_le (by decide)]
    exact BitVec.extractLsb'_append_eq_right
  have h2 : (pack32 b).extractLsb' 8 8 = b.b2 := by
    rw [pack32_eq_append, BitVec.extractLsb'_append_eq_of_le (by decide)]
    exact BitVec.extractLsb'_append_eq_right
  have h3 : (pack32 b).extractLsb' 0 8 = b.b3 := by
    rw [pack32_eq_append]
    exact BitVec.extractLsb'_append_eq_right
  rw [unpack32, h0, h1, h2, h3]

/-- The four places of `unpack32` are adjacent, so their concatenation is the whole word. -/
@[simp] theorem pack32_unpack32 (w : Word) : pack32 (unpack32 w) = w :=
  calc pack32 (unpack32 w)
    _ = w.extractLsb' 24 8 ++ w.extractLsb' 16 8 ++ w.extractLsb' 8 8 ++ w.extractLsb' 0 8 :=
      pack32_eq_append _
    _ = w.extractLsb' 0 32 := by
      rw [BitVec.extractLsb'_append_extractLsb'_eq_extractLsb' (by decide : 24 = 16 + 8),
        BitVec.extractLsb'_append_extractLsb'_eq_extractLsb' (by decide : 16 = 8 + 8),
        BitVec.extractLsb'_append_extractLsb'_eq_extractLsb' (by decide : 8 = 0 + 8)]
    _ = w := BitVec.extractLsb'_eq_self

/-- Settles O14: `pack32` concatenates its four bytes, and `unpack32` cuts the word at the same places. -/
theorem packAndUnpackAreInverse : Obligations.PackAndUnpackAreInverse :=
  ⟨toNat_pack32, fun _ => rfl, unpack32_pack32, pack32_unpack32⟩

theorem offsetOf_addressOf {off : Nat} (h : off < Config.windowBytes) : offsetOf (addressOf off) = some off := by
  rw [offsetOf, addressOf, if_pos ⟨Nat.le_add_right .., Nat.add_lt_add_left h _⟩, Nat.add_sub_cancel_left]

theorem offsetOf_outside {a : Nat} (h : a < Config.base ∨ Config.base + Config.windowBytes ≤ a) :
    offsetOf a = none :=
  if_neg (by omega)

/-- The window is checked before the width, the alignment and BUSY (log entry 5). -/
theorem admitted_outside {width : AccessWidth} {off : Nat} {sr : Bool} {s : State} {go : Result}
    (h : Config.windowBytes ≤ off) : admitted width off sr s go = .fault .accessOutsideWindow :=
  if_pos h

/-- Settles O10: `offsetOf` undoes `addressOf` on the window and answers none elsewhere, and `admitted` faults outside
the window whatever else holds of the access. -/
theorem windowAddressesReachTheCore : Obligations.WindowAddressesReachTheCore := by
  refine ⟨fun off h => ?_, fun a h => ?_, fun s rest width off h hp => ?_⟩
  · simp [memRead, memWrite, offsetOf_addressOf h]
  · simp [memRead, memWrite, offsetOf_outside h]
  · obtain hp | ⟨v, hp⟩ := hp
    · exact (step_of_pending hp).trans (admitted_outside h)
    · exact (step_of_pending hp).trans (admitted_outside h)

end Sys2Proof.Machine

/-! The statements of 10_state.md: which steps write which state element (R31 to R35, R42), and what every step keeps
(R34, R37, R46). A command is inspected once per property, through `exec_cases`; `step_effects` and `step_keeps` carry
the result over to a step. -/

namespace Sys2Proof.Safety

open Sys2Proof.Machine

/-- `u` is `s` but for what a host access writes: KEY, DIN, the command latch and the host's two lists. -/
def DiffersByAccess (s u : State) : Prop :=
  ∃ k d c p r, u = { s with key := k, din := d, cmd := c, pending := p, reads := r }

theorem differsByAccess_refl (s : State) : DiffersByAccess s s := ⟨_, _, _, _, _, rfl⟩

theorem differsByAccess_returnRead (s : State) (rest : List HostEvent) (v : Word) :
    DiffersByAccess s ((s.withPending rest).returnRead v) := ⟨_, _, _, _, _, rfl⟩

theorem differsByAccess_busWrite (s : State) (rest : List HostEvent) (off : Nat) (v : Word) :
    DiffersByAccess s (busWrite off v (s.withPending rest)) := by
  obtain ⟨k, d, hw⟩ := busWrite_eq off v (s.withPending rest)
  exact hw ▸ ⟨_, _, _, _, _, rfl⟩

theorem differsByAccess_latchCommand (s : State) (rest : List HostEvent) (v : Word) :
    DiffersByAccess s ((s.withPending rest).latchCommand v) := ⟨_, _, _, _, _, rfl⟩

theorem decode_eq_clear {v : Word} (h : decode v = .ok .clear) : v = 0x00000007#32 := by
  have hv : v &&& 0xFFFFFFFF#32 = 0x00000007#32 := by simpa using decode_forms h
  rwa [show 0xFFFFFFFF#32 = BitVec.allOnes 32 from rfl, BitVec.and_allOnes] at hv

theorem nextClears_of_nextCommand {s : State} (h : nextCommand .clear s) : nextClears s := by
  obtain ⟨v, rest, hp, hv⟩ := h
  exact ⟨rest, .inr (decode_eq_clear hv ▸ hp)⟩

/-- What a step does to the engine: nothing, a reset, the error of an illegal word, or one command. -/
theorem step_effects {s t : State} (h : step s = .next t) :
    DiffersByAccess s t ∨ (nextClears s ∧ ∃ u : State, t = u.cleared) ∨
    (∃ u : State, DiffersByAccess s u ∧ t = u.raise .illegalCommand) ∨
    (∃ i u, nextCommand i s ∧ DiffersByAccess s u ∧ exec i u = .next t) := by
  rcases step_forms h with rfl | ⟨rest, hp, rfl⟩ | ⟨rest, off, -, rfl⟩ | ⟨rest, off, v, -, -, -, rfl⟩ |
    ⟨rest, v, hp, -, ⟨i, hi, hx⟩ | ⟨r, -, rfl⟩⟩
  · exact .inl (differsByAccess_refl _)
  · exact .inr (.inl ⟨⟨rest, .inl hp⟩, _, rfl⟩)
  · exact .inl (differsByAccess_returnRead s rest _)
  · exact .inl (differsByAccess_busWrite s rest off v)
  · exact .inr (.inr (.inr ⟨i, _, ⟨v, rest, hp, hi⟩, differsByAccess_latchCommand s rest v, hx⟩))
  · exact .inr (.inr (.inl ⟨_, differsByAccess_latchCommand s rest v, rfl⟩))

/-- A property that host accesses, resets, errors and commands keep, every step keeps. -/
theorem step_keeps {P : State → Prop} (haccess : ∀ {s u}, DiffersByAccess s u → P s → P u)
    (hclear : ∀ u : State, P u.cleared) (hraise : ∀ {u : State} (e), P u → P (u.raise e))
    (hexec : ∀ {i u t}, exec i u = .next t → P u → P t) {s t : State} (h : step s = .next t) (hs : P s) : P t := by
  rcases step_effects h with ha | ⟨-, u, rfl⟩ | ⟨u, ha, rfl⟩ | ⟨i, u, -, ha, hx⟩
  · exact haccess ha hs
  · exact hclear u
  · exact hraise _ (haccess ha hs)
  · exact hexec hx (haccess ha hs)

/-- A part of the state that neither host accesses nor errors write changes only at CLEAR, at reset and by a command. -/
theorem step_keeps_or_executes {α : Type} (f : State → α) (haccess : ∀ {s u}, DiffersByAccess s u → f u = f s)
    (hraise : ∀ (e) (u : State), f (u.raise e) = f u) {s t : State} (h : step s = .next t) :
    f t = f s ∨ nextClears s ∨ ∃ i u, nextCommand i s ∧ f u = f s ∧ exec i u = .next t := by
  rcases step_effects h with ha | ⟨hc, -⟩ | ⟨u, ha, rfl⟩ | ⟨i, u, hi, ha, hx⟩
  · exact .inl (haccess ha)
  · exact .inr (.inl hc)
  · exact .inl ((hraise _ u).trans (haccess ha))
  · exact .inr (.inr ⟨i, u, hi, haccess ha, hx⟩)

/-! ## The subkeys of a key (R34, R37) -/

theorem SubkeysOfAKey.access {s u : State} (ha : DiffersByAccess s u) (h : SubkeysOfAKey s) : SubkeysOfAKey u := by
  obtain ⟨k, d, c, p, r, rfl⟩ := ha
  exact h

theorem subkeysOfAKey_cleared (s : State) : SubkeysOfAKey s.cleared := ⟨fun h => (by cases h), fun _ => rfl⟩

theorem subkeysOfAKey_loadKey (s : State) (k : Bytes8) :
    SubkeysOfAKey ((s.loadSubkeys (keySchedule k)).closeSession).succeed :=
  ⟨fun _ => ⟨k, rfl⟩, fun h => (by cases h)⟩

/-- KEY_LOAD puts the schedule of KEY into W (41_key_schedule.md R166), CLEAR the reset value, and no other command
writes W or KEY_VALID. -/
theorem SubkeysOfAKey.exec {i : Instr} {s t : State} (hx : exec i s = .next t) (h : SubkeysOfAKey s) :
    SubkeysOfAKey t := by
  rcases exec_cases hx with ⟨e, rfl⟩ | ⟨-, rfl⟩ | ⟨-, rfl⟩ | ⟨-, rfl⟩ | ⟨len, -, -, rfl⟩ | ⟨-, -, rfl⟩ |
    ⟨bits, -, -, -, rfl⟩ | ⟨len, c, -, -, -, -, -, rfl⟩
  · exact h
  · exact h
  · exact subkeysOfAKey_cleared s
  · exact subkeysOfAKey_loadKey s s.key
  · exact h
  · exact h
  · exact h
  · exact h

/-- Settles O27: W and KEY_VALID are written together, by KEY_LOAD and by CLEAR and reset. -/
theorem stepKeepsSubkeysOfAKey : Obligations.StepKeepsSubkeysOfAKey :=
  ⟨subkeysOfAKey_cleared State.reset, fun _ _ hs h =>
    step_keeps SubkeysOfAKey.access subkeysOfAKey_cleared (fun _ hu => hu) SubkeysOfAKey.exec h hs⟩

/-! ## The invariants of the engine (R36, R46) -/

/-- A length of at most 8 fits the four-bit fields OUT_LEN and SEG_BYTES. -/
theorem toNat_nibble_of_le_eight {n : Nat} (h : n ≤ 8) : (BitVec.ofNat 4 n).toNat = n :=
  (BitVec.toNat_ofNat n 4).trans (Nat.mod_eq_of_lt (by omega))

theorem EngineInv.access {s u : State} (ha : DiffersByAccess s u) (h : EngineInv s) : EngineInv u := by
  obtain ⟨k, d, c, p, r, rfl⟩ := ha
  exact { h with }

theorem engineInv_cleared (s : State) : EngineInv s.cleared where
  seg_zero_iff := by simp
  seg_le := by simp
  ended_active := by simp
  active_key := by simp
  out_le := by simp
  err_le := by simp
  idle := rfl

theorem EngineInv.raise {s : State} (e : ErrCode) (h : EngineInv s) : EngineInv (s.raise e) :=
  { h with err_le := errBits_le_seven e }

theorem EngineInv.succeed {s : State} (h : EngineInv s) : EngineInv s.succeed :=
  { h with err_le := Nat.zero_le 7 }

/-- A new key closes the session, so nothing of W's old contents is left to a session (41_key_schedule.md R166). -/
theorem EngineInv.loadKey {s : State} (w : SubkeyFile) (h : EngineInv s) :
    EngineInv (s.loadSubkeys w).closeSession :=
  { h with
    seg_zero_iff := by simp
    seg_le := by simp
    ended_active := by simp
    active_key := by simp }

theorem EngineInv.output {s : State} (b : Bytes8) {n : Nat} (hn : n ≤ 8) (h : EngineInv s) :
    EngineInv (s.output b n) :=
  { h with out_le := (toNat_nibble_of_le_eight hn).trans_le hn }

theorem EngineInv.openSession {s : State} (iv : Bytes8) {n : Nat} (h1 : 1 ≤ n) (h8 : n ≤ 8)
    (hk : s.keyValid = true) (h : EngineInv s) : EngineInv (s.openSession iv n) := by
  have hn : (BitVec.ofNat 4 n).toNat = n := toNat_nibble_of_le_eight h8
  have h0 : BitVec.ofNat 4 n ≠ 0#4 := fun h0 => by simp [h0] at hn; omega
  exact { h with
    seg_zero_iff := by simp [h0]
    seg_le := hn.trans_le h8
    ended_active := by simp
    active_key := fun _ => hk }

/-- A segment of at most SEG_BYTES bytes gives an OUT_LEN of at most 8; it may end its session, which stays active
(43_cfb.md R218). -/
theorem EngineInv.segmentEffect {s : State} {n : Nat} (c : State → List Byte) (ha : s.cfbActive = true)
    (hn : n ≤ s.segBytes.toNat) (h : EngineInv s) : EngineInv (segmentEffect n c s) :=
  { h with
    ended_active := fun _ => ha
    out_le := (h.output s.dout (hn.trans h.seg_le)).out_le }

theorem validSeg_bounds {bits : Nat} (h : validSeg bits = true) : 1 ≤ bits / 8 ∧ bits / 8 ≤ 8 :=
  (of_decide_eq_true h).2

theorem EngineInv.exec {i : Instr} {s t : State} (hx : exec i s = .next t) (h : EngineInv s) : EngineInv t := by
  rcases exec_cases hx with ⟨e, rfl⟩ | ⟨-, rfl⟩ | ⟨-, rfl⟩ | ⟨-, rfl⟩ | ⟨len, -, -, rfl⟩ | ⟨-, -, rfl⟩ |
    ⟨bits, -, hv, hk, rfl⟩ | ⟨len, c, -, ha, -, -, hn, rfl⟩
  · exact h.raise e
  · exact h.succeed
  · exact engineInv_cleared s
  · exact (h.loadKey _).succeed
  · exact (h.output _ le_rfl).succeed
  · exact (h.output _ (trimFrom_le _ _)).succeed
  · exact (h.openSession _ (validSeg_bounds hv).1 (validSeg_bounds hv).2 hk).succeed
  · exact (h.segmentEffect c ha hn).succeed

/-- Settles O54: the reset state is what CLEAR leaves of it. -/
theorem resetMeetsEngineInv : Obligations.ResetMeetsEngineInv := engineInv_cleared State.reset

/-- Settles O53: each update of the state that a command is made of keeps the invariants under that command's checks. -/
theorem stepKeepsEngineInv : Obligations.StepKeepsEngineInv := fun _ _ hs h =>
  step_keeps EngineInv.access engineInv_cleared EngineInv.raise EngineInv.exec h hs

/-! ## The bytes of DOUT past OUT_LEN (R42, R184, R215) -/

theorem byteAt_of_trimFrom_le (b : Bytes8) {n i : Nat} (h : trimFrom b n ≤ i) (hi : i < n) :
    byteAt (list8 b) i = 0#8 := by
  induction n with
  | zero => omega
  | succ n ih =>
    rw [trimFrom] at h
    split at h
    · next h0 =>
      obtain rfl | hlt : i = n ∨ i < n := by omega
      · exact h0
      · exact ih h hlt
    · omega

theorem byteAt_segmentOut_of_le {y : List Byte} {n i : Nat} (hy : y.length ≤ i) (hi : i < 8) :
    byteAt (list8 (segmentOut y n)) i = 0#8 := by
  rw [segmentOut, byteAt_list8_toBytes8 _ hi, byteAt_append, if_neg (Nat.not_lt.2 hy), byteAt_zeros]

theorem OutputPadded.access {s u : State} (ha : DiffersByAccess s u) (h : OutputPadded s) : OutputPadded u := by
  obtain ⟨k, d, c, p, r, rfl⟩ := ha
  exact h

theorem outputPadded_cleared (s : State) : OutputPadded s.cleared := fun i _ hi => by
  have hz : ∀ i : Fin 8, byteAt (list8 Bytes8.zeros) i = 0#8 := by decide
  exact hz ⟨i, hi⟩

/-- DOUT and OUT_LEN are written together (R42): the new bytes decide. -/
theorem outputPadded_output (s : State) {b : Bytes8} {n : Nat} (hn : n ≤ 8)
    (hb : ∀ i, n ≤ i → i < 8 → byteAt (list8 b) i = 0#8) : OutputPadded (s.output b n) := fun i hi =>
  hb i (by rwa [State.output_outLen, toNat_nibble_of_le_eight hn] at hi)

/-- A whole block has no unused byte, TrimLen stops above zeros only, and a segment is padded with zeros. -/
theorem OutputPadded.exec {i : Instr} {s t : State} (hx : exec i s = .next t) (hs : EngineInv s)
    (h : OutputPadded s) : OutputPadded t := by
  rcases exec_cases hx with ⟨e, rfl⟩ | ⟨-, rfl⟩ | ⟨-, rfl⟩ | ⟨-, rfl⟩ | ⟨len, -, -, rfl⟩ | ⟨-, -, rfl⟩ |
    ⟨bits, -, -, -, rfl⟩ | ⟨len, c, -, -, -, -, hn, rfl⟩
  · exact h
  · exact h
  · exact outputPadded_cleared s
  · exact h
  · exact outputPadded_output s le_rfl fun i hi h8 => absurd h8 (Nat.not_lt.2 hi)
  · exact outputPadded_output s (trimFrom_le _ _) fun i hi h8 => byteAt_of_trimFrom_le _ hi h8
  · exact h
  · exact outputPadded_output s (hn.trans hs.seg_le) fun i hi h8 =>
      byteAt_segmentOut_of_le (by rw [length_segmentXor]; omega) h8

/-- Settles O58: with the engine's invariants, which bound the length of a segment, each output is padded. -/
theorem stepKeepsOutputPadded : Obligations.StepKeepsOutputPadded :=
  ⟨outputPadded_cleared State.reset, fun _ _ hinv hs h =>
    (step_keeps (P := fun s => EngineInv s ∧ OutputPadded s) (fun ha hp => ⟨hp.1.access ha, hp.2.access ha⟩)
      (fun u => ⟨engineInv_cleared u, outputPadded_cleared u⟩) (fun e hp => ⟨hp.1.raise e, hp.2⟩)
      (fun hx hp => ⟨hp.1.exec hx, hp.2.exec hx hp.1⟩) h ⟨hinv, hs⟩).2⟩

/-! ## What may write which element (R31, R32, R33, R35, R296) -/

theorem exec_writes_output {i : Instr} {s t : State} (h : exec i s = .next t) :
    (t.dout = s.dout ∧ t.outLen = s.outLen) ∨ i = .clear ∨
    (t.errCode = 0#4 ∧ ∃ n, i = .encBlock n ∨ i = .decBlock n ∨ i = .cfbEncSeg n ∨ i = .cfbDecSeg n) := by
  rcases exec_cases h with ⟨e, rfl⟩ | ⟨-, rfl⟩ | ⟨rfl, -⟩ | ⟨-, rfl⟩ | ⟨len, rfl, -, rfl⟩ | ⟨rfl, -, rfl⟩ |
    ⟨bits, -, -, -, rfl⟩ | ⟨len, c, hi, -, -, -, -, rfl⟩
  · exact .inl ⟨rfl, rfl⟩
  · exact .inl ⟨rfl, rfl⟩
  · exact .inr (.inl rfl)
  · exact .inl ⟨rfl, rfl⟩
  · exact .inr (.inr ⟨rfl, len, .inl rfl⟩)
  · exact .inr (.inr ⟨rfl, 8, .inr (.inl rfl)⟩)
  · exact .inl ⟨rfl, rfl⟩
  · exact .inr (.inr ⟨rfl, len, .inr (.inr hi)⟩)

theorem exec_writes_feedback {i : Instr} {s t : State} (h : exec i s = .next t) :
    t.fb = s.fb ∨ i = .clear ∨ (t.errCode = 0#4 ∧ ∃ n, i = .cfbInit n ∨ i = .cfbEncSeg n ∨ i = .cfbDecSeg n) := by
  rcases exec_cases h with ⟨e, rfl⟩ | ⟨-, rfl⟩ | ⟨rfl, -⟩ | ⟨-, rfl⟩ | ⟨len, -, -, rfl⟩ | ⟨-, -, rfl⟩ |
    ⟨bits, rfl, -, -, rfl⟩ | ⟨len, c, hi, -, -, -, -, rfl⟩
  · exact .inl rfl
  · exact .inl rfl
  · exact .inr (.inl rfl)
  · exact .inl rfl
  · exact .inl rfl
  · exact .inl rfl
  · exact .inr (.inr ⟨rfl, bits, .inl rfl⟩)
  · exact .inr (.inr ⟨rfl, len, .inr hi⟩)

theorem exec_keeps_operands {i : Instr} {s t : State} (h : exec i s = .next t) :
    (t.key = s.key ∧ t.din = s.din) ∨ i = .clear := by
  rcases exec_cases h with ⟨e, rfl⟩ | ⟨-, rfl⟩ | ⟨rfl, -⟩ | ⟨-, rfl⟩ | ⟨len, -, -, rfl⟩ | ⟨-, -, rfl⟩ |
    ⟨bits, -, -, -, rfl⟩ | ⟨len, c, -, -, -, -, -, rfl⟩
  · exact .inl ⟨rfl, rfl⟩
  · exact .inl ⟨rfl, rfl⟩
  · exact .inr rfl
  · exact .inl ⟨rfl, rfl⟩
  · exact .inl ⟨rfl, rfl⟩
  · exact .inl ⟨rfl, rfl⟩
  · exact .inl ⟨rfl, rfl⟩
  · exact .inl ⟨rfl, rfl⟩

theorem busWrite_writes_key (off : Nat) (v : Word) (s : State) :
    (busWrite off v s).key = s.key ∨ off = 0x10 ∨ off = 0x14 := by
  unfold busWrite
  split
  · next hr => exact .inr (.inl (regAt_eq_some hr))
  · next hr => exact .inr (.inr (regAt_eq_some hr))
  · exact .inl rfl
  · exact .inl rfl
  · exact .inl rfl

theorem busWrite_writes_din (off : Nat) (v : Word) (s : State) :
    (busWrite off v s).din = s.din ∨ off = 0x18 ∨ off = 0x1C := by
  unfold busWrite
  split
  · exact .inl rfl
  · exact .inl rfl
  · next hr => exact .inr (.inl (regAt_eq_some hr))
  · next hr => exact .inr (.inr (regAt_eq_some hr))
  · exact .inl rfl

/-- KEY and DIN change only by a write to another register than CMD, at CLEAR and at reset. -/
theorem step_writes_operands {s t : State} (h : step s = .next t) :
    (t.key = s.key ∧ t.din = s.din) ∨ nextClears s ∨
    ∃ off v rest, s.pending = .write .word off v :: rest ∧ t = busWrite off v (s.withPending rest) := by
  rcases step_forms h with rfl | ⟨rest, hp, -⟩ | ⟨rest, off, -, rfl⟩ | ⟨rest, off, v, hp, -, -, rfl⟩ |
    ⟨rest, v, hp, -, ⟨i, hi, hx⟩ | ⟨r, -, rfl⟩⟩
  · exact .inl ⟨rfl, rfl⟩
  · exact .inr (.inl ⟨rest, .inl hp⟩)
  · exact .inl ⟨rfl, rfl⟩
  · exact .inr (.inr ⟨off, v, rest, hp, rfl⟩)
  · rcases exec_keeps_operands hx with hk | rfl
    · exact .inl hk
    · exact .inr (.inl (nextClears_of_nextCommand ⟨v, rest, hp, hi⟩))
  · exact .inl ⟨rfl, rfl⟩

/-- An operand that host writes change at the offsets `a` and `b` only. -/
theorem step_writes_operand {f : State → Bytes8} {a b : Nat} {s t : State}
    (hkeep : t.key = s.key ∧ t.din = s.din → f t = f s)
    (hwrite : ∀ off v rest, f (busWrite off v (s.withPending rest)) = f s ∨ off = a ∨ off = b)
    (h : step s = .next t) : f t = f s ∨ nextClears s ∨
    ∃ v rest, s.pending = .write .word a v :: rest ∨ s.pending = .write .word b v :: rest := by
  rcases step_writes_operands h with hk | hc | ⟨off, v, rest, hp, rfl⟩
  · exact .inl (hkeep hk)
  · exact .inr (.inl hc)
  · rcases hwrite off v rest with hf | rfl | rfl
    · exact .inl hf
    · exact .inr (.inr ⟨v, rest, .inl hp⟩)
    · exact .inr (.inr ⟨v, rest, .inr hp⟩)

theorem step_writes_feedback {s t : State} (h : step s = .next t) : t.fb = s.fb ∨ nextClears s ∨
    (t.errCode = 0#4 ∧ ∃ n, nextCommand (.cfbInit n) s ∨ nextCommand (.cfbEncSeg n) s ∨
      nextCommand (.cfbDecSeg n) s) := by
  rcases step_keeps_or_executes State.fb (by rintro s _ ⟨_, _, _, _, _, rfl⟩; rfl) State.raise_fb h with
    hf | hc | ⟨i, u, hi, hu, hx⟩
  · exact .inl hf
  · exact .inr (.inl hc)
  rcases exec_writes_feedback hx with hf | rfl | ⟨h0, n, hn⟩
  · exact .inl (hf.trans hu)
  · exact .inr (.inl (nextClears_of_nextCommand hi))
  · exact .inr (.inr ⟨h0, n, by rcases hn with rfl | rfl | rfl <;> simp [hi]⟩)

/-- Settles O55: of the commands only the four write the output, and each that fails leaves it. -/
theorem outputChangesOnlyByOutputCommands : Obligations.OutputChangesOnlyByOutputCommands := by
  intro s t h
  rcases step_keeps_or_executes (fun s => (s.dout, s.outLen)) (by rintro s _ ⟨_, _, _, _, _, rfl⟩; rfl)
    (fun _ _ => rfl) h with ho | hc | ⟨i, u, hi, hu, hx⟩
  · exact .inl (Prod.mk.inj ho)
  · exact .inr (.inl hc)
  obtain ⟨hd, hl⟩ := Prod.mk.inj hu
  rcases exec_writes_output hx with ⟨hd', hl'⟩ | rfl | ⟨h0, n, hn⟩
  · exact .inl ⟨hd'.trans hd, hl'.trans hl⟩
  · exact .inr (.inl (nextClears_of_nextCommand hi))
  · exact .inr (.inr ⟨h0, n, by rcases hn with rfl | rfl | rfl | rfl <;> simp [hi]⟩)

/-- Settles O56: a write to KEY and DIN is one of their own halves, and FB is the commands' alone. -/
theorem operandAndFeedbackWriters : Obligations.OperandAndFeedbackWriters := fun _ _ h =>
  ⟨step_writes_operand (f := State.key) And.left (fun off v _ => busWrite_writes_key off v _) h,
   step_writes_operand (f := State.din) And.right (fun off v _ => busWrite_writes_din off v _) h,
   step_writes_feedback h⟩

end Sys2Proof.Safety

/-! The statements of 20_memory.md: which accesses are refused (R62), the operand registers (R71), and how host events
take effect one after the other (R72). -/

namespace Sys2Proof.Machine

/-- Inside the window the width and the alignment are checked before BUSY (log entry 5). -/
theorem admitted_malformed {width : AccessWidth} {off : Nat} {sr : Bool} {s : State} {go : Result}
    (ho : off < Config.windowBytes) (hm : width ≠ .word ∨ off % 4 ≠ 0) :
    admitted width off sr s go = .refused .malformedAccess :=
  (if_neg (Nat.not_le.2 ho)).trans (if_pos hm)

/-- Settles O8: a read and a write meet the same check. -/
theorem malformedAccessRefused : Obligations.MalformedAccessRefused := by
  intro s rest width off ho hm hp
  obtain hp | ⟨v, hp⟩ := hp
  · exact (step_of_pending hp).trans (admitted_malformed ho hm)
  · exact (step_of_pending hp).trans (admitted_malformed ho hm)

/-! ## The operand registers (R71, R297) -/

/-- A write reaches the register at its own offset at most. -/
theorem readReg_busWrite_of_ne {r : Reg} {off : Nat} (h : regOffset r ≠ off) (v : Word) (s : State) :
    readReg (busWrite off v s) r = readReg s r := by
  have hne {r' : Reg} (hr' : regAt off = some r') : r ≠ r' := fun hr => h (hr ▸ (regAt_eq_some hr').symm)
  unfold busWrite
  split
  · next hr => cases r with
    | key0 => exact absurd rfl (hne hr)
    | _ => rfl
  · next hr => cases r with
    | key1 => exact absurd rfl (hne hr)
    | _ => rfl
  · next hr => cases r with
    | din0 => exact absurd rfl (hne hr)
    | _ => rfl
  · next hr => cases r with
    | din1 => exact absurd rfl (hne hr)
    | _ => rfl
  · rfl

theorem busRead_busWrite_of_ne {other off : Nat} (h : other ≠ off) (v : Word) (s : State) :
    busRead other (busWrite off v s) = busRead other s := by
  unfold busRead
  split
  · next r hr => exact readReg_busWrite_of_ne (regAt_eq_some hr ▸ h) v s
  · rfl

/-- Settles O13: an operand register holds its word unpacked and is read packed. -/
theorem operandRegistersReadBack : Obligations.OperandRegistersReadBack := by
  intro s v off hoff
  refine ⟨?_, fun other h => busRead_busWrite_of_ne h v s⟩
  rcases hoff with rfl | rfl | rfl | rfl
  · exact pack32_unpack32 v
  · exact pack32_unpack32 v
  · exact pack32_unpack32 v
  · exact pack32_unpack32 v

/-! ## The order of the host's events (R72)

No event looks at the list of the events still pending, so performing one commutes with replacing that list. -/

/-- The result with `g` applied to its next state, if it has one. -/
def mapNext (g : State → State) : Result → Result
  | .next t => .next (g t)
  | .fault f => .fault f
  | .refused r => .refused r

theorem checked_withPending (es : List HostEvent) (cs : List (Bool × ErrCode)) {f : State → State} {s : State}
    (hf : f (s.withPending es) = (f s).withPending es) :
    checked cs f (s.withPending es) = mapNext (State.withPending es) (checked cs f s) := by
  unfold checked
  split
  · rfl
  · rw [hf]; rfl

theorem exec_withPending (es : List HostEvent) (i : Instr) (s : State) :
    exec i (s.withPending es) = mapNext (State.withPending es) (exec i s) := by
  cases i with
  | clear => rfl
  | nop => unfold exec execNop; exact checked_withPending es _ rfl
  | keyLoad len => unfold exec execKeyLoad; exact checked_withPending es _ rfl
  | encBlock len => unfold exec execEncBlock; exact checked_withPending es _ rfl
  | decBlock len => unfold exec execDecBlock; exact checked_withPending es _ rfl
  | cfbInit bits => unfold exec execCfbInit; exact checked_withPending es _ rfl
  | cfbEncSeg len => unfold exec execCfbEncSeg; exact checked_withPending es _ rfl
  | cfbDecSeg len => unfold exec execCfbDecSeg; exact checked_withPending es _ rfl

theorem writeCommand_withPending (es : List HostEvent) (v : Word) (s : State) :
    writeCommand v (s.withPending es) = mapNext (State.withPending es) (writeCommand v s) := by
  unfold writeCommand
  split
  · next i _ => exact exec_withPending es i (s.latchCommand v)
  · rfl

theorem busWrite_withPending (es : List HostEvent) (off : Nat) (v : Word) (s : State) :
    busWrite off v (s.withPending es) = (busWrite off v s).withPending es := by
  unfold busWrite
  split
  · rfl
  · rfl
  · rfl
  · rfl
  · rfl

theorem admitted_withPending (es : List HostEvent) (width : AccessWidth) (off : Nat) (sr : Bool) (s : State)
    (go : Result) : admitted width off sr (s.withPending es) (mapNext (State.withPending es) go) =
      mapNext (State.withPending es) (admitted width off sr s go) := by
  simp only [admitted, State.withPending_busy, apply_ite (mapNext (State.withPending es))]
  rfl

theorem perform_withPending (es : List HostEvent) (e : HostEvent) (s : State) :
    perform e (s.withPending es) = mapNext (State.withPending es) (perform e s) := by
  cases e with
  | reset => rfl
  | read width off => exact admitted_withPending es width off _ s (.next (s.returnRead (busRead off s)))
  | write width off v =>
    simp only [perform, ← admitted_withPending]
    split
    · rw [writeCommand_withPending]
    · rw [busWrite_withPending]; rfl

/-- An event leaves the events after it pending: replacing the list by itself changes nothing. -/
theorem perform_pending {e : HostEvent} {s t : State} (h : perform e s = .next t) : t.pending = s.pending := by
  have hs : perform e (s.withPending s.pending) = .next (t.withPending s.pending) := by
    rw [perform_withPending, h]; rfl
  have ht : t = t.withPending s.pending := Host.Outcome.next.inj (h.symm.trans hs)
  calc t.pending
    _ = (t.withPending s.pending).pending := congrArg State.pending ht
    _ = s.pending := rfl

theorem core_run_succ (k : Nat) (s : State) : Sys2Proof.core.run (k + 1) s =
    match step s with
    | .next t => Sys2Proof.core.run k t
    | .fault f => .fault f
    | .refused r => .refused r := by
  cases h : step s <;> simp [Host.Core.run, core, h]

theorem core_run_withPending_append (es : List HostEvent) (s : State) :
    Sys2Proof.core.run es.length (s.withPending (es ++ s.pending)) = runEvents es s := by
  induction es generalizing s with
  | nil => rfl
  | cons e es ih =>
    have hstep : step (s.withPending (e :: es ++ s.pending)) =
        mapNext (State.withPending (es ++ s.pending)) (perform e s) := perform_withPending _ e s
    rw [List.length_cons, core_run_succ, hstep, runEvents]
    cases hp : perform e s with
    | next t =>
      have ht := ih t
      rw [perform_pending hp] at ht
      exact ht
    | fault f => rfl
    | refused r => rfl

/-- Settles O7: each step performs the oldest event, as if the later ones were not there yet. -/
theorem accessesTakeEffectInOrder : Obligations.AccessesTakeEffectInOrder :=
  ⟨core_run_withPending_append, fun s h => by rw [step, h]⟩

end Sys2Proof.Machine

/-! ## The host's obligations (R62, R294) -/

namespace Sys2Proof.Safety

open Sys2Proof.Machine

theorem perform_allowed {e : HostEvent} (he : eventAllowed e = true) {s : State} (hb : s.busy = false) :
    ∃ t, perform e s = .next t := by
  cases e with
  | reset => exact ⟨_, rfl⟩
  | read width off =>
    obtain ⟨rfl, h4, ho⟩ := of_decide_eq_true he
    exact ⟨_, perform_read h4 ho hb⟩
  | write width off v =>
    obtain ⟨rfl, h4, ho⟩ := of_decide_eq_true he
    by_cases hc : off = 4
    · subst hc
      rw [perform_command hb]
      exact writeCommand_next v s
    · exact ⟨_, perform_write h4 ho hc hb⟩

theorem exec_keeps_idle {i : Instr} {s t : State} (hx : exec i s = .next t) (h : s.busy = false) :
    t.busy = false := by
  rcases exec_cases hx with ⟨e, rfl⟩ | ⟨-, rfl⟩ | ⟨-, rfl⟩ | ⟨-, rfl⟩ | ⟨len, -, -, rfl⟩ | ⟨-, -, rfl⟩ |
    ⟨bits, -, -, -, rfl⟩ | ⟨len, c, -, -, -, -, -, rfl⟩
  · exact h
  · exact h
  · rfl
  · exact h
  · exact h
  · exact h
  · exact h
  · exact h

theorem step_keeps_idle {s t : State} (h : step s = .next t) (hb : s.busy = false) : t.busy = false :=
  step_keeps (P := fun u => u.busy = false) (by rintro s _ ⟨_, _, _, _, _, rfl⟩ hu; exact hu) (fun _ => rfl)
    (fun _ hu => hu) exec_keeps_idle h hb

/-- A step of an idle core whose host behaves completes, and what is pending after it was pending before. -/
theorem step_of_behaved {s : State} (hs : hostBehaves s = true) (hb : s.busy = false) :
    ∃ t, step s = .next t ∧ hostBehaves t = true := by
  cases hp : s.pending with
  | nil => exact ⟨s, by rw [step, hp], hs⟩
  | cons e rest =>
    rw [hostBehaves, hp, List.all_cons, Bool.and_eq_true] at hs
    obtain ⟨he, hrest⟩ := hs
    obtain ⟨t, ht⟩ := perform_allowed he (s := s.withPending rest) hb
    have htp : t.pending = rest := perform_pending ht
    exact ⟨t, (step_of_pending hp).trans ht, by rwa [hostBehaves, htp]⟩

/-- Settles O57: an allowed event meets no reason to stop, and no step sets BUSY. -/
theorem behavedHostNeverStopsTheCore : Obligations.BehavedHostNeverStopsTheCore := by
  intro s hs hb
  obtain ⟨t, ht, hbehaves⟩ := step_of_behaved hs hb
  exact ⟨t, ht, hbehaves, step_keeps_idle ht hb⟩

end Sys2Proof.Safety

/-! The statements of 30_encoding.md: the opcode table (R95 to R97), the round trips of encoder and decoder (R91 to
R99), the canonical words (R101), and the pseudo-operations of the host (R100). -/

namespace Sys2Proof

/-! ## The rows of the opcode table (R95)

A row fixes the fields its mask covers. Every row fixes OP, each at a value of its own, so at most one row fits a
word. -/

/-- The field of `len` bits at bit `start` is `v` in every word that fits the row: the mask covers it. -/
abbrev OpcodeRow.Fixes (r : OpcodeRow) (start len : Nat) (v : BitVec len) : Prop :=
  r.mask.extractLsb' start len = BitVec.allOnes len ∧ r.pattern.extractLsb' start len = v

theorem OpcodeRow.fits_iff {r : OpcodeRow} {w : Word} : r.fits w = true ↔ w &&& r.mask = r.pattern := by
  simp [OpcodeRow.fits]

theorem OpcodeRow.Fixes.extract_eq {r : OpcodeRow} {start len : Nat} {v : BitVec len} (h : r.Fixes start len v)
    {w : Word} (hw : r.fits w = true) : w.extractLsb' start len = v := by
  obtain ⟨hmask, hpattern⟩ := h
  rw [← hpattern, ← OpcodeRow.fits_iff.1 hw, BitVec.extractLsb'_and, hmask, BitVec.and_allOnes]

/-- R91, R97: every row fixes OP, at a value below 8. -/
theorem opcodeRows_fix_op :
    ∀ r ∈ opcodeRows, r.Fixes 0 4 (r.pattern.extractLsb' 0 4) ∧ (r.pattern.extractLsb' 0 4).toNat < 8 := by
  decide

/-- R96: every row fixes the reserved fields RSV0, RSV1 and RSV2 at 0. -/
theorem opcodeRows_fix_reserved :
    ∀ r ∈ opcodeRows, r.Fixes 4 4 0#4 ∧ r.Fixes 15 1 0#1 ∧ r.Fixes 20 12 0#12 := by
  decide

/-- R93, R96: every row but CFB_INIT's fixes SEGBITS at 0. -/
theorem opcodeRows_fix_segBits : ∀ r ∈ opcodeRows, r.Fixes 0 4 4#4 ∨ r.Fixes 8 7 0#7 := by decide

/-- R94, R96: the rows of NOP, CFB_INIT and CLEAR fix LEN at 0. -/
theorem opcodeRows_fix_len :
    ∀ r ∈ opcodeRows, r.pattern.extractLsb' 0 4 = 0#4 ∨ r.pattern.extractLsb' 0 4 = 4#4 ∨
      r.pattern.extractLsb' 0 4 = 7#4 → r.Fixes 16 4 0#4 := by
  decide

theorem extract_op_of_fits {r : OpcodeRow} (hr : r ∈ opcodeRows) {w : Word} (hw : r.fits w = true) :
    w.extractLsb' 0 4 = r.pattern.extractLsb' 0 4 :=
  (opcodeRows_fix_op r hr).1.extract_eq hw

theorem opcodeRows_exclusive {r q : OpcodeRow} (hr : r ∈ opcodeRows) (hq : q ∈ opcodeRows) {w : Word}
    (hrw : r.fits w = true) (hqw : q.fits w = true) : r = q := by
  have hdistinct : (opcodeRows.map fun r => r.pattern.extractLsb' 0 4).Nodup := by decide
  exact List.inj_on_of_nodup_map hdistinct hr hq
    ((extract_op_of_fits hr hrw).symm.trans (extract_op_of_fits hq hqw))

/-- No earlier row hides the one that fits. -/
theorem decode_of_fits {r : OpcodeRow} (hr : r ∈ opcodeRows) {w : Word} (hw : r.fits w = true) :
    decode w = .ok (r.make w) := by
  obtain ⟨q, hq⟩ : ∃ q, opcodeRows.find? (fun q => q.fits w) = some q :=
    Option.isSome_iff_exists.1 (List.find?_isSome.2 ⟨r, hr, hw⟩)
  have hqw : q.fits w = true := by simpa using List.find?_some hq
  have hqr : q = r := opcodeRows_exclusive (List.mem_of_find?_eq_some hq) hr hqw hw
  rw [decode, hq, hqr]

theorem decode_eq_ok_iff {w : Word} {i : Instr} :
    decode w = .ok i ↔ ∃ r ∈ opcodeRows, r.fits w = true ∧ r.make w = i :=
  ⟨decode_row, fun ⟨_, hr, hw, hi⟩ => hi ▸ decode_of_fits hr hw⟩

/-! ## Encoding and decoding (R91 to R99) -/

theorem ownRow : ∀ i : Instr, Laws.OwnRow.Statement i
  | .nop => Laws.OwnRow.nop
  | .keyLoad len => Laws.OwnRow.keyLoad len
  | .encBlock len => Laws.OwnRow.encBlock len
  | .decBlock len => Laws.OwnRow.decBlock len
  | .cfbInit bits => Laws.OwnRow.cfbInit bits
  | .cfbEncSeg len => Laws.OwnRow.cfbEncSeg len
  | .cfbDecSeg len => Laws.OwnRow.cfbDecSeg len
  | .clear => Laws.OwnRow.clear

/-- Settles O2: the word of a command fits the row that makes the command again, and the decoder finds that row. -/
theorem decodeEncodeRoundTrip : Obligations.DecodeEncodeRoundTrip := by
  intro i hi
  obtain ⟨r, hr, hfits, hmake⟩ := ownRow i hi
  exact (decode_of_fits hr hfits).trans (congrArg Except.ok hmake)

/-- A field cut out of a word and put back in its place is the word under the field's mask. -/
theorem extract_shiftLeft_eq_and {n : Nat} (w : BitVec n) (start len : Nat) :
    (w.extractLsb' start len).setWidth n <<< start = w &&& (BitVec.allOnes len).setWidth n <<< start := by
  ext i hi
  simp only [BitVec.getElem_shiftLeft, BitVec.getElem_and, BitVec.getElem_setWidth, BitVec.getLsbD_extractLsb',
    BitVec.getLsbD_allOnes]
  by_cases h : i < start
  · simp [h]
  · simp [h, Nat.add_sub_cancel' (Nat.le_of_not_lt h), BitVec.getLsbD_eq_getElem hi, Bool.and_comm]

/-- A field shifted down and masked is the field cut out. -/
theorem shiftRight_and_eq_extract {n : Nat} (w : BitVec n) (start len : Nat) :
    w >>> start &&& (BitVec.allOnes len).setWidth n = (w.extractLsb' start len).setWidth n := by
  ext i hi
  simp [Bool.and_comm]

theorem lenBits_lenField (w : Word) : lenBits (lenField w) = w &&& 0x000F0000#32 := by
  rw [lenBits, lenField, BitVec.ofNat_toNat]
  exact extract_shiftLeft_eq_and w 16 4

theorem segBits_segBitsField (w : Word) : segBits (segBitsField w) = w &&& 0x00007F00#32 := by
  rw [segBits, segBitsField, BitVec.ofNat_toNat]
  exact extract_shiftLeft_eq_and w 8 7

theorem lenField_eq (w : Word) : lenField w = (w >>> 16 &&& 0xF#32).toNat := by
  have h := congrArg BitVec.toNat (shiftRight_and_eq_extract w 16 4)
  rw [BitVec.toNat_setWidth_of_le (by decide)] at h
  exact h.symm

theorem segBitsField_eq (w : Word) : segBitsField w = (w >>> 8 &&& 0x7F#32).toNat := by
  have h := congrArg BitVec.toNat (shiftRight_and_eq_extract w 8 7)
  rw [BitVec.toNat_setWidth_of_le (by decide)] at h
  exact h.symm

theorem lenFits_lenField (w : Word) : lenFits (lenField w) = true := decide_eq_true (BitVec.isLt _)

theorem segBitsFits_segBitsField (w : Word) : segBitsFits (segBitsField w) = true := decide_eq_true (BitVec.isLt _)

/-- The pattern of a word and its free field, which the mask `m` leaves out, are the whole word. -/
theorem or_and_eq_of_masked {w m p : Word} (h : w &&& m = p) {f : Word} (hf : m ||| f = BitVec.allOnes 32) :
    p ||| (w &&& f) = w := by
  rw [← h, ← BitVec.and_or_distrib_left, hf, BitVec.and_allOnes]

theorem or_lenBits_eq {w p : Word} (h : w &&& 0xFFF0FFFF#32 = p) : p ||| lenBits (lenField w) = w :=
  lenBits_lenField w ▸ or_and_eq_of_masked h rfl

theorem or_segBits_eq {w p : Word} (h : w &&& 0xFFFF80FF#32 = p) : p ||| segBits (segBitsField w) = w :=
  segBits_segBitsField w ▸ or_and_eq_of_masked h rfl

/-- Settles O3: the row's mask covers every bit but those of its free field, and the command carries the free field. -/
theorem encodeDecodeRoundTrip : Obligations.EncodeDecodeRoundTrip := by
  intro w i h
  rcases decode_forms h with ⟨rfl, hw⟩ | ⟨rfl, hw⟩ | ⟨rfl, hw⟩ | ⟨rfl, hw⟩ | ⟨rfl, hw⟩ | ⟨rfl, hw⟩ |
    ⟨rfl, hw⟩ | ⟨rfl, hw⟩
  · exact ⟨rfl, hw.symm.trans BitVec.and_allOnes⟩
  · exact ⟨lenFits_lenField w, or_lenBits_eq hw⟩
  · exact ⟨lenFits_lenField w, or_lenBits_eq hw⟩
  · exact ⟨lenFits_lenField w, or_lenBits_eq hw⟩
  · exact ⟨segBitsFits_segBitsField w, or_segBits_eq hw⟩
  · exact ⟨lenFits_lenField w, or_lenBits_eq hw⟩
  · exact ⟨lenFits_lenField w, or_lenBits_eq hw⟩
  · exact ⟨rfl, hw.symm.trans BitVec.and_allOnes⟩

/-- Settles O1: the words are those of the encoder, whose commands are well formed and so decode again. -/
theorem canonicalWordsDecode : Obligations.CanonicalWordsDecode := by
  intro p hp
  have hencode : p.1.wellFormed = true ∧ encode p.1 = p.2 := by
    revert p
    decide
  obtain ⟨hwf, hw⟩ := hencode
  exact ⟨hw ▸ decodeEncodeRoundTrip p.1 hwf, hw⟩

/-! ## Illegal words (R95 to R97) -/

/-- A CMD write of a word that fits no row latches the word and raises ILLEGAL_COMMAND. -/
theorem writeCommand_of_no_row {w : Word} (h : ∀ r ∈ opcodeRows, r.fits w = false) (s : Machine.State) :
    Machine.writeCommand w s = .next { s with cmd := w, errCode := 0x3#4, err := true } := by
  obtain ⟨e, he⟩ := decode_error h
  rw [Machine.writeCommand, he]
  rfl

/-- Settles O4: at most one row fits, and each command is made by one row only. -/
theorem opcodeTableMatchesWords : Obligations.OpcodeTableMatchesWords := by
  intro w
  have hlen : ∀ n, lenField w = n ↔ n = (w >>> 16 &&& 0xF#32).toNat := fun n => lenField_eq w ▸ eq_comm
  have hseg : ∀ n, segBitsField w = n ↔ n = (w >>> 8 &&& 0x7F#32).toNat := fun n => segBitsField_eq w ▸ eq_comm
  refine ⟨?_, fun n => ?_, fun n => ?_, fun n => ?_, fun n => ?_, fun n => ?_, fun n => ?_, ?_, ?_⟩
  · simp [decode_eq_ok_iff, opcodeRows, OpcodeRow.fits_iff]
  · simp [decode_eq_ok_iff, opcodeRows, OpcodeRow.fits_iff, hlen]
  · simp [decode_eq_ok_iff, opcodeRows, OpcodeRow.fits_iff, hlen]
  · simp [decode_eq_ok_iff, opcodeRows, OpcodeRow.fits_iff, hlen]
  · simp [decode_eq_ok_iff, opcodeRows, OpcodeRow.fits_iff, hseg]
  · simp [decode_eq_ok_iff, opcodeRows, OpcodeRow.fits_iff, hlen]
  · simp [decode_eq_ok_iff, opcodeRows, OpcodeRow.fits_iff, hlen]
  · simp [decode_eq_ok_iff, opcodeRows, OpcodeRow.fits_iff]
  rintro _ (rfl : _ = opcodeRows.map fun r => (r.pattern, r.mask))
  simp only [List.forall_mem_map, ← OpcodeRow.fits_iff]
  refine ⟨fun r hr q hq hrw hqw => ?_, fun hno s => ?_⟩
  · rw [opcodeRows_exclusive hr hq hrw hqw]
  · exact writeCommand_of_no_row (fun r hr => Bool.eq_false_of_not_eq_true (mt OpcodeRow.fits_iff.1 (hno r hr))) s

/-- Settles O5: each of the fields is fixed by the mask of every row that could still fit the word. -/
theorem illegalWordsRaise : Obligations.IllegalWordsRaise := by
  refine ⟨fun s w hbad => ⟨_, writeCommand_of_no_row (fun r hr => ?_) s, rfl, rfl⟩,
    ⟨.nonzeroUnusedField, by decide⟩, ⟨.nonzeroUnusedField, by decide⟩⟩
  refine Bool.eq_false_of_not_eq_true fun hw => ?_
  obtain ⟨hrsv0, hrsv1, hrsv2⟩ := opcodeRows_fix_reserved r hr
  have hop := extract_op_of_fits hr hw
  rcases hbad with h | h | h | h | ⟨h4, h⟩ | ⟨hop', h⟩
  · exact absurd (opcodeRows_fix_op r hr).2 (Nat.not_lt.2 (hop ▸ h))
  · exact h (hrsv0.extract_eq hw)
  · exact h (hrsv1.extract_eq hw)
  · exact h (hrsv2.extract_eq hw)
  · rcases opcodeRows_fix_segBits r hr with h4' | hseg
    · exact h4 (h4'.extract_eq hw)
    · exact h (hseg.extract_eq hw)
  · exact h ((opcodeRows_fix_len r hr (hop ▸ hop')).extract_eq hw)

end Sys2Proof

namespace Sys2Proof.Machine

/-! ## The host's operations on an idle core (R99) -/

theorem readReg_returnRead (v : Word) (s : State) (r : Reg) : readReg (s.returnRead v) r = readReg s r := by
  cases r <;> rfl

theorem regOffset_in_window (r : Reg) : regOffset r % 4 = 0 ∧ regOffset r < 128 := by
  cases r with
  | sk j => simp only [regOffset]; omega
  | _ => decide

theorem runEvents_hostRd (r : Reg) {s : State} (hb : s.busy = false) :
    runEvents (hostRd r) s = .next (s.returnRead (readReg s r)) := by
  obtain ⟨h4, hw⟩ := regOffset_in_window r
  rw [hostRd, runEvents_cons_next (perform_read h4 hw hb), busRead_regOffset]
  rfl

/-- Two reads in a row: the second sees the registers as the first did. -/
theorem runEvents_hostRd_hostRd (r q : Reg) {s : State} (hb : s.busy = false) :
    runEvents (hostRd r ++ hostRd q) s = .next { s with reads := readReg s q :: readReg s r :: s.reads } := by
  rw [runEvents_append (runEvents_hostRd r hb), runEvents_hostRd q (s := s.returnRead _) hb, readReg_returnRead]
  rfl

theorem runEvents_hostWr {r : Reg} (hr : regOffset r ≠ 4) (v : Word) {s : State} (hb : s.busy = false) :
    runEvents (hostWr r v) s = .next (busWrite (regOffset r) v s) := by
  obtain ⟨h4, hw⟩ := regOffset_in_window r
  rw [hostWr, runEvents_cons_next (perform_write h4 hw hr hb)]
  rfl

theorem runEvents_setKey (k : Bytes8) {s : State} (hb : s.busy = false) :
    runEvents (setKey k) s = .next { s with key := k } := by
  rw [setKey, runEvents_append (runEvents_hostWr (by decide) _ hb),
    runEvents_hostWr (by decide) _ (s := busWrite (regOffset .key0) _ s) hb]
  simp [busWrite]

theorem runEvents_setDin (v : Bytes8) {s : State} (hb : s.busy = false) :
    runEvents (setDin v) s = .next { s with din := v } := by
  rw [setDin, runEvents_append (runEvents_hostWr (by decide) _ hb),
    runEvents_hostWr (by decide) _ (s := busWrite (regOffset .din0) _ s) hb]
  simp [busWrite]

theorem runEvents_hostCmd {i : Instr} (hi : i.wellFormed = true) {s t : State} (hb : s.busy = false)
    (hx : exec i (s.latchCommand (encode i)) = .next t) : runEvents (hostCmd i) s = .next t := by
  have hwrite : perform (.write .word 4 (encode i)) s = .next t := by
    rw [perform_command hb, writeCommand, decodeEncodeRoundTrip i hi]
    exact hx
  exact runEvents_cons_next hwrite []

/-- The common shape of the pseudo-operations (R100): operand writes, a command, and one poll, which reads STATUS as the
command leaves it. -/
theorem runEvents_cmd_poll {es : List HostEvent} {i : Instr} {s u t : State} (hes : runEvents es s = .next u)
    (hi : i.wellFormed = true) (hb : u.busy = false) (hx : exec i (u.latchCommand (encode i)) = .next t) :
    runEvents (es ++ hostCmd i ++ hostPoll) s = .next (t.returnRead (statusWord t)) := by
  have ht : t.busy = false := Safety.exec_keeps_idle hx hb
  rw [List.append_assoc, runEvents_append hes, runEvents_append (runEvents_hostCmd hi hb hx)]
  exact runEvents_hostRd .status ht

/-- The same with GETDOUT after it. -/
theorem runEvents_cmd_poll_getDout {es : List HostEvent} {i : Instr} {s u t : State}
    (hes : runEvents es s = .next u) (hi : i.wellFormed = true) (hb : u.busy = false)
    (hx : exec i (u.latchCommand (encode i)) = .next t) :
    runEvents (es ++ hostCmd i ++ hostPoll ++ getDout) s =
      .next { t with reads := pack32 t.dout.right :: pack32 t.dout.left :: statusWord t :: t.reads } := by
  have ht : t.busy = false := Safety.exec_keeps_idle hx hb
  rw [runEvents_append (runEvents_cmd_poll hes hi hb hx)]
  exact runEvents_hostRd_hostRd .dout0 .dout1 ht

/-! ## The commands of the pseudo-operations, where their checks hold -/

theorem exec_keyLoad_eight (s : State) :
    exec (.keyLoad 8) s = .next ((s.loadSubkeys (keySchedule s.key)).closeSession).succeed := rfl

theorem pad_eight (b : Bytes8) : pad b 8 = b := rfl

theorem exec_encBlock_eight {s : State} (hk : s.keyValid = true) :
    exec (.encBlock 8) s = .next (s.output (encryptBlock s.din s.w) 8).succeed :=
  checked_of_none (by simp [hk]) _ s

theorem exec_decBlock_eight {s : State} (hk : s.keyValid = true) :
    exec (.decBlock 8) s =
      .next (s.output (decryptBlock s.din s.w) (trimLen (decryptBlock s.din s.w))).succeed :=
  checked_of_none (by simp [hk]) _ s

theorem exec_cfbInit_of_valid {bits : Nat} {s : State} (hv : validSeg bits = true) (hk : s.keyValid = true) :
    exec (.cfbInit bits) s = .next (s.openSession s.din (bits / 8)).succeed :=
  checked_of_none (by simp [hv, hk]) _ s

theorem segBitsFits_of_validSeg {bits : Nat} (h : validSeg bits = true) : segBitsFits bits = true := by
  have h8 : bits / 8 ≤ 8 := (Safety.validSeg_bounds h).2
  exact decide_eq_true (by omega)

/-- Settles O59: each pseudo-operation is operand writes, a command whose checks hold, and reads. -/
theorem pseudoOperationsRun : Obligations.PseudoOperationsRun := by
  intro s v hb
  refine ⟨?_, fun hk => ?_, fun hk => ?_, fun hk bits hv => ?_, runEvents_hostRd_hostRd .fb0 .fb1 hb⟩
  · exact ⟨_, runEvents_cmd_poll (runEvents_setKey v hb) rfl hb (exec_keyLoad_eight _), rfl, rfl, rfl, rfl⟩
  · exact ⟨_, runEvents_cmd_poll_getDout (runEvents_setDin v hb) rfl hb (exec_encBlock_eight hk), rfl, rfl⟩
  · exact ⟨_, runEvents_cmd_poll_getDout (runEvents_setDin v hb) rfl hb (exec_decBlock_eight hk), rfl, rfl⟩
  · exact ⟨_, runEvents_cmd_poll (runEvents_setDin v hb) (segBitsFits_of_validSeg hv) hb
      (exec_cfbInit_of_valid hv hk), rfl, rfl, rfl, rfl⟩

end Sys2Proof.Machine

/-! The statements of 40_primitives.md: ROL2 (R122), the S-function and its table (R123 to R127), and the round
functions (R130 to R133). -/

namespace Sys2Proof.Machine

/-! ## ROL2 -/

/-- Bit `i` of ROL2 comes from two places below, modulo 8: the top two bits wrap into the bottom (R122). -/
theorem getLsbD_rol2 (x : Byte) {i : Nat} (hi : i < 8) : (rol2 x).getLsbD i = x.getLsbD ((i + 6) % 8) := by
  simp only [rol2, BitVec.getLsbD_or, BitVec.getLsbD_shiftLeft, BitVec.getLsbD_ushiftRight]
  by_cases h : i < 2
  · have hwrap : (i + 6) % 8 = 6 + i := by omega
    simp [h, hwrap, Config.rot]
  · have hshift : (i + 6) % 8 = i - 2 := by omega
    have hout : x.getLsbD (6 + i) = false := BitVec.getLsbD_of_ge _ _ (by omega)
    simp [h, hi, hshift, hout, Config.rot]

/-- A field that does not wrap in ROL2's operand moves as one. -/
theorem extract_rol2 (x : Byte) {start len : Nat} (hout : start + len ≤ 8) (hin : (start + 6) % 8 + len ≤ 8) :
    (rol2 x).extractLsb' start len = x.extractLsb' ((start + 6) % 8) len := by
  ext i hi
  have hplace : (start + i + 6) % 8 = (start + 6) % 8 + i := by omega
  rw [BitVec.getElem_extractLsb', BitVec.getElem_extractLsb', getLsbD_rol2 x (by omega), hplace]

/-- Four rotations by two come around once. -/
theorem rol2_rol2_rol2_rol2 (x : Byte) : rol2 (rol2 (rol2 (rol2 x))) = x := by
  refine BitVec.eq_of_getLsbD_eq fun i hi => ?_
  have hplace : ((((i + 6) % 8 + 6) % 8 + 6) % 8 + 6) % 8 = i := by omega
  rw [getLsbD_rol2 _ hi, getLsbD_rol2 _ (Nat.mod_lt _ (by decide)), getLsbD_rol2 _ (Nat.mod_lt _ (by decide)),
    getLsbD_rol2 _ (Nat.mod_lt _ (by decide)), hplace]

/-- The inverse of ROL2: the three rotations that are left of a whole turn. -/
def ror2 (y : Byte) : Byte := rol2 (rol2 (rol2 y))

@[simp] theorem ror2_rol2 (x : Byte) : ror2 (rol2 x) = x := rol2_rol2_rol2_rol2 x

@[simp] theorem rol2_ror2 (y : Byte) : rol2 (ror2 y) = y := rol2_rol2_rol2_rol2 y

theorem rol2_bijective : Function.Bijective rol2 :=
  Function.bijective_iff_has_inverse.2 ⟨ror2, ror2_rol2, rol2_ror2⟩

/-- Settles O18: where each bit goes, and ROL2 three times undoes ROL2. -/
theorem rol2RotatesByTwo : Obligations.Rol2RotatesByTwo :=
  ⟨fun x => ⟨extract_rol2 x (by decide) (by decide), extract_rol2 x (by decide) (by decide),
    rol2_rol2_rol2_rol2 x⟩, rol2_bijective, by decide, by decide, by decide, by decide, by decide, by decide⟩

/-! ## The S-function -/

/-- The three-input sum of R123, its carry out discarded, is the exact sum modulo 256. -/
theorem sFun_eq_rol2_sum (x1 x2 : Byte) (k : Bool) :
    sFun x1 x2 k = rol2 (BitVec.ofNat 8 ((x1.toNat + x2.toNat + k.toNat) % 256)) := by
  have hsum : x1 + x2 + (if k then 1#8 else 0#8) = BitVec.ofNat 8 ((x1.toNat + x2.toNat + k.toNat) % 256) := by
    cases k <;> exact BitVec.eq_of_toNat_eq (by simp)
  rw [sFun, hsum]

/-- Settles O19: the adder gives the exact sum modulo 256; S0 and S1 are S at a fixed `k`. -/
theorem sFunctionRotatesTheSum : Obligations.SFunctionRotatesTheSum :=
  ⟨fun x1 x2 k => ⟨sFun_eq_rol2_sum x1 x2 k, rfl, rfl⟩, by decide, by decide, by decide, by decide, by decide,
    by decide⟩

theorem sFun_comm (x1 x2 : Byte) (k : Bool) : sFun x1 x2 k = sFun x2 x1 k := by
  rw [sFun, sFun, BitVec.add_comm x1]

/-- The carry in of S1 may as well be added to its second argument first. -/
theorem s1_eq_s0_add_one (x1 x2 : Byte) : s1 x1 x2 = s0 x1 (x2 + 1#8) := by
  simp [s1, s0, sFun, BitVec.add_assoc]

/-- What S was given first, from its result: rotate back and subtract the other two summands. -/
def sUndo (y x2 : Byte) (k : Bool) : Byte := ror2 y - (if k then 1#8 else 0#8) - x2

@[simp] theorem sUndo_sFun (x1 x2 : Byte) (k : Bool) : sUndo (sFun x1 x2 k) x2 k = x1 := by
  simp [sUndo, sFun]

@[simp] theorem sFun_sUndo (y x2 : Byte) (k : Bool) : sFun (sUndo y x2 k) x2 k = y := by
  simp [sUndo, sFun]

theorem sFun_bijective (x2 : Byte) (k : Bool) : Function.Bijective fun x1 => sFun x1 x2 k :=
  Function.bijective_iff_has_inverse.2
    ⟨fun y => sUndo y x2 k, fun x1 => sUndo_sFun x1 x2 k, fun y => sFun_sUndo y x2 k⟩

/-- Settles O20: addition commutes and associates, and `sUndo` inverts S in its first argument. -/
theorem sFunctionLaws : Obligations.SFunctionLaws :=
  ⟨sFun_comm, s1_eq_s0_add_one, sFun_bijective⟩

/-! ## The table of the S-function (R126) -/

theorem rol2LutLow_eq_map_rol2 : rol2LutLow = (List.range' 0 128).map fun v => rol2 (BitVec.ofNat 8 v) := by decide

theorem rol2LutHigh_eq_map_rol2 : rol2LutHigh = (List.range' 128 128).map fun v => rol2 (BitVec.ofNat 8 v) := by decide

/-- The printed table lists ROL2 of 0 to 255 in order. -/
theorem rol2Lut_eq_map_rol2 : rol2Lut = (List.range 256).map fun v => rol2 (BitVec.ofNat 8 v) := by
  rw [rol2Lut, rol2LutLow_eq_map_rol2, rol2LutHigh_eq_map_rol2, ← List.map_append, List.range'_append_1,
    List.range_eq_range']

theorem rol2FromLut_eq_rol2 (v : Byte) : rol2FromLut v = rol2 v := by
  simp [rol2FromLut, rol2Lut_eq_map_rol2, byteAt, v.isLt]

/-- Settles O21: the table is ROL2 entry by entry, and S is ROL2 of the sum that indexes it. -/
theorem lutComputesTheSFunction : Obligations.LutComputesTheSFunction :=
  ⟨by simp [rol2Lut_eq_map_rol2], rol2FromLut_eq_rol2, fun x1 x2 k =>
    (rol2FromLut_eq_rol2 _).trans (sFun_eq_rol2_sum x1 x2 k).symm⟩

/-! ## The round functions -/

/-- The argument of F from its result. The two middle bytes of the result are the outputs of the inner stages, so the
stages are undone one by one: `t2` and `t1` from the middle bytes, then `a0` and `a3` from the outer ones. -/
def roundFUndo (y : Bytes4) : Bytes4 :=
  let t2 := sUndo y.b2 y.b1 false
  let t1 := sUndo y.b1 t2 true
  let a0 := sUndo y.b0 y.b1 false
  let a3 := sUndo y.b3 y.b2 true
  ⟨a0, a0 ^^^ t1, t2 ^^^ a3, a3⟩

/-- The last stage gives `a3` as its second argument; S is symmetric (R127), so `sUndo` finds it too. -/
theorem roundFUndo_roundF (a : Bytes4) : roundFUndo (roundF a) = a := by
  simp [roundFUndo, roundF, s0, s1, sFun_comm _ a.b3]

theorem roundF_roundFUndo (y : Bytes4) : roundF (roundFUndo y) = y := by
  simp [roundFUndo, roundF, s0, s1, sFun_comm y.b2]

theorem roundF_bijective : Function.Bijective roundF :=
  Function.bijective_iff_has_inverse.2 ⟨roundFUndo, roundFUndo_roundF, roundF_roundFUndo⟩

/-- Settles O22: the stages are the definitions' own, and `roundFUndo` inverts F. -/
theorem roundFunctionStages : Obligations.RoundFunctionStages := by
  refine ⟨?stagesF, ?stagesFK, roundF_bijective, by decide, by decide, by decide, by decide, by decide, by decide,
    by decide⟩
  case stagesF => rintro a0 a1 a2 a3 _ _ rfl rfl; rfl
  case stagesFK => rintro a0 a1 a2 a3 b0 b1 b2 b3 _ _ rfl rfl; rfl

/-- Settles O23: a zero mixing value drops out of every stage, and the last stage is symmetric (R133). -/
theorem roundFIsKeyedByZero : Obligations.RoundFIsKeyedByZero := fun a => by
  simp [roundF, roundFK, s1, sFun_comm _ a.b3]

end Sys2Proof.Machine

/-! The statements of 41_key_schedule.md: the closed form of the key schedule (R160 to R165), KEY_LOAD (R166), and
what W depends on (R167). -/

namespace Sys2Proof.Machine

/-! ## The closed form (R165)

The right half of the key is zero (R160), so step 1's term X drops out of every iteration; D is zero before the first,
so step 2 may be done there too. -/

@[simp] theorem rightTerm_eq_zeros (j : Nat) : rightTerm j = Bytes4.zeros := by
  unfold rightTerm
  split
  · rfl
  · exact xor4_zeros Bytes4.zeros
  · rfl

theorem mixingValue_keyRegsAt (key : Bytes8) (j : Nat) :
    mixingValue j (keyRegsAt key j) = xor4 (keyRegsAt key j).b (keyRegsAt key j).d := by
  cases j with
  | zero => simp [mixingValue, keyRegsAt, keyInit]
  | succ j => simp [mixingValue]

theorem keyWord_keyRegsAt (key : Bytes8) (j : Nat) : keyWord j (keyRegsAt key j) =
    roundFK (keyRegsAt key j).a (xor4 (keyRegsAt key j).b (keyRegsAt key j).d) := by
  rw [keyWord, mixingValue_keyRegsAt]

theorem subkey_keySchedule (key : Bytes8) (j : Fin 6) :
    subkey (keySchedule key) j = keyWord j (keyRegsAt key j) :=
  match j with
  | 0 => rfl
  | 1 => rfl
  | 2 => rfl
  | 3 => rfl
  | 4 => rfl
  | 5 => rfl

/-- Settles O24: the sequences are the working registers at the start of each iteration, and each word is the closed
form of the registers it is made of. -/
theorem keyScheduleClosedForm : Obligations.KeyScheduleClosedForm := by
  rintro K _ rfl
  refine ⟨⟨fun j => (keyRegsAt K j).a, fun j => (keyRegsAt K j).b, fun j => (keyRegsAt K j).d, rfl, rfl, rfl,
    fun j => ?_⟩, ?_, keyWord_keyRegsAt K 1, keyWord_keyRegsAt K 2, keyWord_keyRegsAt K 3, keyWord_keyRegsAt K 4,
    keyWord_keyRegsAt K 5⟩
  · rw [subkey_keySchedule]
    exact ⟨keyWord_keyRegsAt K j, rfl, rfl, rfl⟩
  · calc (keySchedule K).w0
      _ = roundFK K.left (xor4 K.right Bytes4.zeros) := keyWord_keyRegsAt K 0
      _ = roundFK K.left K.right := by rw [xor4_zeros]

/-! ## KEY_LOAD (R166) -/

theorem toNat_lenBits (len : Nat) : (lenBits len).toNat = (len % 2 ^ 16) <<< 16 := by
  rw [lenBits, BitVec.toNat_shiftLeft, BitVec.toNat_ofNat, Nat.shiftLeft_eq, Nat.shiftLeft_eq]
  omega

/-- LEN stands above OP and does not overlap it, so they add up (30_encoding.md R99). -/
theorem ofNat_or_lenBits {op : Nat} (hop : op < 2 ^ 16) (len : Nat) :
    BitVec.ofNat 32 op ||| lenBits len = BitVec.ofNat 32 (len * 2 ^ 16 + op) := by
  refine BitVec.eq_of_toNat_eq ?_
  rw [BitVec.or_comm, BitVec.toNat_or, toNat_lenBits, BitVec.toNat_ofNat, BitVec.toNat_ofNat,
    Nat.mod_eq_of_lt (by omega : op < 2 ^ 32), ← Nat.shiftLeft_add_eq_or_of_lt hop, Nat.shiftLeft_eq]
  omega

theorem encode_keyLoad (len : Nat) : encode (.keyLoad len) = BitVec.ofNat 32 (len * 0x10000 + 0x1) :=
  ofNat_or_lenBits (by decide) len

theorem exec_keyLoad_of_ne_eight {len : Nat} (h : len ≠ 8) (s : State) :
    exec (.keyLoad len) s = .next (s.raise .invalidKeyLength) := by
  unfold exec execKeyLoad
  exact checked_of_some (by rw [bne_iff_ne.2 h, firstFailure_true]) _ s

/-- The first check of a segment command (R271). -/
theorem firstFailure_segmentChecks_of_inactive {s : State} (h : s.cfbActive = false) (len : Nat) :
    firstFailure (segmentChecks len s) = some .noSession := by
  simp [segmentChecks, h]

theorem exec_cfbEncSeg_of_inactive {s : State} (h : s.cfbActive = false) (len : Nat) :
    exec (.cfbEncSeg len) s = .next (s.raise .noSession) :=
  checked_of_some (firstFailure_segmentChecks_of_inactive h len) _ s

theorem exec_cfbDecSeg_of_inactive {s : State} (h : s.cfbActive = false) (len : Nat) :
    exec (.cfbDecSeg len) s = .next (s.raise .noSession) :=
  checked_of_some (firstFailure_segmentChecks_of_inactive h len) _ s

/-- Settles O25: KEY_LOAD reads KEY and leaves it, so a second load gives the same W, and it leaves no session. -/
theorem keyLoadResult : Obligations.KeyLoadResult := by
  refine ⟨exec_keyLoad_eight, fun s _ h => exec_keyLoad_of_ne_eight h s, encode_keyLoad 8,
    fun n _ => encode_keyLoad n, by decide, ?again, ?noSession, ?exampleKey⟩
  case again =>
    intro s t h
    cases h
    exact ⟨_, exec_keyLoad_eight _, rfl⟩
  case noSession =>
    intro s t len h
    cases h
    exact ⟨exec_cfbEncSeg_of_inactive rfl len, exec_cfbDecSeg_of_inactive rfl len⟩
  case exampleKey =>
    intro s hs
    refine ⟨_, exec_keyLoad_eight s, ?_⟩
    change keySchedule s.key = _
    rw [hs]
    decide

end Sys2Proof.Machine

namespace Sys2Proof.Safety

open Sys2Proof.Machine

/-! ## What W depends on (R167) -/

theorem exec_writes_subkeys {i : Instr} {s t : State} (h : exec i s = .next t) :
    t.w = s.w ∨ i = .clear ∨ i = .keyLoad 8 := by
  rcases exec_cases h with ⟨e, rfl⟩ | ⟨-, rfl⟩ | ⟨rfl, -⟩ | ⟨rfl, -⟩ | ⟨len, -, -, rfl⟩ | ⟨-, -, rfl⟩ |
    ⟨bits, -, -, -, rfl⟩ | ⟨len, c, -, -, -, -, -, rfl⟩
  · exact .inl rfl
  · exact .inl rfl
  · exact .inr (.inl rfl)
  · exact .inr (.inr rfl)
  · exact .inl rfl
  · exact .inl rfl
  · exact .inl rfl
  · exact .inl rfl

theorem step_writes_subkeys {s t : State} (h : step s = .next t) :
    t.w = s.w ∨ nextClears s ∨ nextCommand (.keyLoad 8) s := by
  rcases step_keeps_or_executes State.w (by rintro s _ ⟨_, _, _, _, _, rfl⟩; rfl) State.raise_w h with
    hw | hc | ⟨i, u, hi, hu, hx⟩
  · exact .inl hw
  · exact .inr (.inl hc)
  rcases exec_writes_subkeys hx with hw | rfl | rfl
  · exact .inl (hw.trans hu)
  · exact .inr (.inl (nextClears_of_nextCommand hi))
  · exact .inr (.inr hi)

/-- A checked command whose checks and effect do not look at KEY carries another KEY through. -/
theorem checked_withKey {cs : List (Bool × ErrCode)} {f : State → State} {s t : State} {k : Bytes8}
    (hf : f { s with key := k } = { f s with key := k }) (h : checked cs f s = .next t) :
    checked cs f { s with key := k } = .next { t with key := k } :=
  checked_comm (fun s => { s with key := k }) (fun _ => rfl) (congrArg State.succeed hf) h

theorem exec_withKey {n : Nat} {i : Instr}
    (hi : i = .encBlock n ∨ i = .decBlock n ∨ i = .cfbEncSeg n ∨ i = .cfbDecSeg n) {s t : State} (k : Bytes8)
    (h : exec i s = .next t) : exec i { s with key := k } = .next { t with key := k } := by
  rcases hi with rfl | rfl | rfl | rfl
  · exact checked_withKey rfl h
  · exact checked_withKey rfl h
  · exact checked_withKey rfl h
  · exact checked_withKey rfl h

/-- Settles O26: of the commands only KEY_LOAD and CLEAR write W, and the block and segment commands take their subkeys
from W, so neither their checks nor their effects look at KEY. -/
theorem subkeysChangeOnlyAtLoadClearReset : Obligations.SubkeysChangeOnlyAtLoadClearReset := by
  refine ⟨fun _ _ => step_writes_subkeys, fun _ _ => ⟨rfl, rfl⟩, fun n i hi s k => ?_⟩
  obtain ⟨t, ht⟩ := exec_next i s
  exact ⟨t, ht, exec_withKey hi k ht⟩

end Sys2Proof.Safety

/-! The statements of 42_block_transform.md: the two directions of the block transform (R180 to R182), the padded block
and the stripped length (R183, R184), and ENC_BLOCK and DEC_BLOCK (R185 to R187). -/

namespace Sys2Proof.Machine

/-! ## The block transform (R180 to R182) -/

/-! The words of the rules' two example keys, so that an example evaluates no key schedule. -/

theorem keySchedule_zeros : keySchedule Bytes8.zeros = ⟨unpack32 0x10041044#32, unpack32 0x51440119#32,
    unpack32 0xE5680281#32, unpack32 0xBD0CE1F8#32, unpack32 0xF3F709A9#32, unpack32 0x2707C69F#32⟩ := by
  obtain ⟨-, -, -, -, hzeros, -⟩ := keyLoadResult
  exact hzeros

theorem keySchedule_exampleKey : keySchedule ⟨unpack32 0x01234567#32, unpack32 0x89ABCDEF#32⟩ =
    ⟨unpack32 0xDF3BCA36#32, unpack32 0xF17C1AEC#32, unpack32 0x45A5B9C7#32, unpack32 0x26EBAD25#32,
      unpack32 0x8B2AECB7#32, unpack32 0xAC509D4C#32⟩ := by
  obtain ⟨-, -, -, -, -, -, -, hexample⟩ := keyLoadResult
  obtain ⟨t, ht, hw⟩ := hexample { State.reset with key := ⟨unpack32 0x01234567#32, unpack32 0x89ABCDEF#32⟩ } rfl
  cases ht
  exact hw

/-- Settles O28: the named halves are those the definition's stages compute; the swaps only rename them. -/
theorem encryptBlockRounds : Obligations.EncryptBlockRounds := by
  refine ⟨?stages, by rw [keySchedule_zeros]; decide⟩
  case stages => rintro p w _ _ _ _ _ _ rfl rfl rfl rfl rfl rfl; rfl

/-- Settles O29: as for encryption, with the stages undone from the last to the first. -/
theorem decryptBlockRounds : Obligations.DecryptBlockRounds := by
  refine ⟨?stages, by rw [keySchedule_zeros]; decide⟩
  case stages => rintro c w _ _ _ _ _ rfl rfl rfl rfl rfl; rfl

/-- Steps that `g` undoes one by one, `g` undoes all together, the last step first. -/
theorem foldl_reverse_foldl_cancel {α β : Type} {f g : α → β → α} (h : ∀ x k, g (f x k) k = x) (ks : List β) (x : α) :
    ks.reverse.foldl g (ks.foldl f x) = x := by
  induction ks generalizing x with
  | nil => rfl
  | cons k ks ih =>
    calc (k :: ks).reverse.foldl g ((k :: ks).foldl f x)
      _ = g (ks.reverse.foldl g (ks.foldl f (f x k))) k := by simp
      _ = x := by rw [ih, h]

theorem decRounds_encRounds (ks : List Bytes4) (x : Bytes8) :
    ks.reverse.foldl decRound (ks.foldl encRound x) = x :=
  foldl_reverse_foldl_cancel decRound_encRound ks x

theorem encRounds_decRounds (ks : List Bytes4) (x : Bytes8) :
    ks.foldl encRound (ks.reverse.foldl decRound x) = x := by
  simpa only [List.reverse_reverse] using foldl_reverse_foldl_cancel encRound_decRound ks.reverse x

@[simp] theorem decryptBlock_encryptBlock (p : Bytes8) (w : SubkeyFile) : decryptBlock (encryptBlock p w) w = p := by
  simp only [decryptBlock, encryptBlock, postMix_postMix, swapHalves_swapHalves, decRounds_encRounds, preMix_preMix,
    whiten_whiten]

@[simp] theorem encryptBlock_decryptBlock (c : Bytes8) (w : SubkeyFile) : encryptBlock (decryptBlock c w) w = c := by
  simp only [decryptBlock, encryptBlock, whiten_whiten, preMix_preMix, encRounds_decRounds, swapHalves_swapHalves,
    postMix_postMix]

/-- Settles O30: every stage is undone by its counterpart, so the two functions are each other's inverse. -/
theorem blockRoundTrip : Obligations.BlockRoundTrip := by
  intro w
  have hdec : ∀ p, decryptBlock (encryptBlock p w) w = p := fun p => decryptBlock_encryptBlock p w
  have henc : ∀ c, encryptBlock (decryptBlock c w) w = c := fun c => encryptBlock_decryptBlock c w
  exact ⟨hdec, henc, Function.bijective_iff_has_inverse.2 ⟨fun c => decryptBlock c w, hdec, henc⟩,
    Function.bijective_iff_has_inverse.2 ⟨fun p => encryptBlock p w, henc, hdec⟩⟩

/-! ## Pad (R183) -/

theorem bytes8_ext {a b : Bytes8} (h : ∀ i, i < 8 → byteAt (list8 a) i = byteAt (list8 b) i) : a = b :=
  calc a
    _ = toBytes8 (list8 a) := (toBytes8_list8 a).symm
    _ = toBytes8 (list8 b) := by simp [toBytes8, h]
    _ = b := toBytes8_list8 b

theorem byteAt_pad (d : Bytes8) {n i : Nat} (hn : n ≤ 8) (hi : i < 8) :
    byteAt (list8 (pad d n)) i = if i < n then byteAt (list8 d) i else 0#8 := by
  rw [pad, byteAt_list8_toBytes8 _ hi, byteAt_append, length_take, Nat.min_eq_left hn, byteAt_zeros, take, byteAt_take]
  split <;> rfl

/-- Settles O31: the bytes of a padded block are known one by one, and they determine it. -/
theorem padKeepsLeadingBytes : Obligations.PadKeepsLeadingBytes := by
  refine fun d n _ hn => ⟨fun i hi => byteAt_pad d hn hi, fun d' hd => bytes8_ext fun i hi => ?_⟩
  rw [byteAt_pad d' hn hi, byteAt_pad d hn hi]
  split
  · next hlt => exact hd i hlt
  · rfl

/-! ## TrimLen (R184) -/

/-- TrimLen's loop stops only at the start of the block or above a byte that is not zero. -/
theorem byteAt_trimFrom_sub_one_ne {b : Bytes8} {n : Nat} (h : 0 < trimFrom b n) :
    byteAt (list8 b) (trimFrom b n - 1) ≠ 0#8 := by
  induction n with
  | zero => exact absurd h (lt_irrefl 0)
  | succ n ih =>
    rw [trimFrom] at h ⊢
    split
    · next h0 => exact ih (by rwa [if_pos h0] at h)
    · next h0 => exact h0

theorem trimLen_le (b : Bytes8) : trimLen b ≤ 8 := trimFrom_le b 8

theorem byteAt_of_trimLen_le {b : Bytes8} {i : Nat} (h : trimLen b ≤ i) (hi : i < 8) : byteAt (list8 b) i = 0#8 :=
  Safety.byteAt_of_trimFrom_le b h hi

theorem byteAt_trimLen_sub_one_ne {b : Bytes8} (h : 0 < trimLen b) : byteAt (list8 b) (trimLen b - 1) ≠ 0#8 :=
  byteAt_trimFrom_sub_one_ne h

/-- A positive TrimLen is where the last byte that is not zero ends. -/
theorem trimLen_eq_iff {b : Bytes8} {n : Nat} (h1 : 1 ≤ n) (h8 : n ≤ 8) : trimLen b = n ↔
    byteAt (list8 b) (n - 1) ≠ 0#8 ∧ ∀ i, n ≤ i → i < 8 → byteAt (list8 b) i = 0#8 := by
  constructor
  · rintro rfl
    exact ⟨byteAt_trimLen_sub_one_ne h1, fun _ => byteAt_of_trimLen_le⟩
  · rintro ⟨hlast, hzero⟩
    have htrim : trimLen b ≤ 8 := trimLen_le b
    rcases lt_trichotomy (trimLen b) n with hlt | heq | hgt
    · exact absurd (byteAt_of_trimLen_le (by omega) (by omega)) hlast
    · exact heq
    · exact absurd (hzero (trimLen b - 1) (by omega) (by omega)) (byteAt_trimLen_sub_one_ne (by omega))

/-- Settles O32: TrimLen stops above zeros only, and below itself has a byte that is not zero. -/
theorem trimLenStripsTrailingZeros : Obligations.TrimLenStripsTrailingZeros := by
  refine fun b => ⟨trimLen_le b, fun _ => byteAt_of_trimLen_le, byteAt_trimLen_sub_one_ne, fun h7 => ?_, ?_⟩
  · exact (trimLen_eq_iff (by decide) le_rfl).2 ⟨h7, fun i hi hi8 => by omega⟩
  · rintro rfl
    decide

/-- The stripped length of a padded block is the padded length where the last byte kept is not zero (R186). -/
theorem trimLen_pad_eq_iff (x : Bytes8) {n : Nat} (h1 : 1 ≤ n) (h8 : n ≤ 8) :
    trimLen (pad x n) = n ↔ byteAt (list8 x) (n - 1) ≠ 0#8 := by
  have hlast : byteAt (list8 (pad x n)) (n - 1) = byteAt (list8 x) (n - 1) := by
    rw [byteAt_pad x h8 (by omega), if_pos (by omega)]
  have hzero : ∀ i, n ≤ i → i < 8 → byteAt (list8 (pad x n)) i = 0#8 := fun i hi hi8 => by
    rw [byteAt_pad x h8 hi8, if_neg (Nat.not_lt.2 hi)]
  rw [trimLen_eq_iff h1 h8, hlast]
  exact and_iff_left hzero

/-! ## ENC_BLOCK (R185) -/

theorem encode_encBlock (len : Nat) : encode (.encBlock len) = BitVec.ofNat 32 (len * 0x10000 + 0x2) :=
  ofNat_or_lenBits (by decide) len

theorem exec_encBlock_eq_checked (len : Nat) (s : State) : exec (.encBlock len) s =
    checked [(decide (len < 1 ∨ 8 < len), .badLength), (!s.keyValid, .keyNotLoaded)]
      (fun t => t.output (encryptBlock (pad t.din len) t.w) 8) s := rfl

theorem exec_encBlock_of_keyValid {len : Nat} (h1 : 1 ≤ len) (h8 : len ≤ 8) {s : State} (hk : s.keyValid = true) :
    exec (.encBlock len) s = .next (s.output (encryptBlock (pad s.din len) s.w) 8).succeed := by
  have hlen : ¬(len < 1 ∨ 8 < len) := by omega
  rw [exec_encBlock_eq_checked]
  exact checked_of_none (by rw [decide_eq_false hlen, hk]; rfl) _ s

theorem exec_encBlock_of_bad_length {len : Nat} (h : len < 1 ∨ 8 < len) (s : State) :
    exec (.encBlock len) s = .next (s.raise .badLength) := by
  rw [exec_encBlock_eq_checked]
  exact checked_of_some (by rw [decide_eq_true h, firstFailure_true]) _ s

theorem exec_encBlock_of_no_key {len : Nat} (h1 : 1 ≤ len) (h8 : len ≤ 8) {s : State} (hk : s.keyValid = false) :
    exec (.encBlock len) s = .next (s.raise .keyNotLoaded) := by
  have hlen : ¬(len < 1 ∨ 8 < len) := by omega
  rw [exec_encBlock_eq_checked]
  exact checked_of_some (by rw [decide_eq_false hlen, hk]; rfl) _ s

/-- Settles O33: LEN is checked before KEY_VALID, and the effect is one output. -/
theorem encBlockResult : Obligations.EncBlockResult := by
  refine ⟨fun _ _ h1 h8 => exec_encBlock_of_keyValid h1 h8, fun s _ h => exec_encBlock_of_bad_length h s,
    fun _ _ h1 h8 => exec_encBlock_of_no_key h1 h8, encode_encBlock 8, fun n _ => encode_encBlock n, pad_eight,
    ?zeroBlock, ?exampleBlock⟩
  case zeroBlock => exact ⟨keySchedule Bytes8.zeros, by rw [encryptBlockRounds.2]; decide⟩
  case exampleBlock =>
    intro s hk hw hd
    refine ⟨_, exec_encBlock_eight hk, rfl, ?_⟩
    change encryptBlock s.din s.w = _
    rw [hw, hd, keySchedule_zeros]
    decide

/-! ## DEC_BLOCK (R186) -/

theorem encode_decBlock (len : Nat) : encode (.decBlock len) = BitVec.ofNat 32 (len * 0x10000 + 0x3) :=
  ofNat_or_lenBits (by decide) len

theorem exec_decBlock_eq_checked (len : Nat) (s : State) : exec (.decBlock len) s =
    checked [(len != 8, .badLength), (!s.keyValid, .keyNotLoaded)]
      (fun t => t.output (decryptBlock t.din t.w) (trimLen (decryptBlock t.din t.w))) s := rfl

theorem exec_decBlock_of_ne_eight {len : Nat} (h : len ≠ 8) (s : State) :
    exec (.decBlock len) s = .next (s.raise .badLength) := by
  rw [exec_decBlock_eq_checked]
  exact checked_of_some (by rw [bne_iff_ne.2 h, firstFailure_true]) _ s

theorem exec_decBlock_of_no_key {s : State} (hk : s.keyValid = false) :
    exec (.decBlock 8) s = .next (s.raise .keyNotLoaded) := by
  rw [exec_decBlock_eq_checked]
  exact checked_of_some (by simp [hk]) _ s

/-- Settles O34: LEN is checked before KEY_VALID; what was padded comes back padded, and its stripped length is known
from its bytes. -/
theorem decBlockResult : Obligations.DecBlockResult := by
  refine ⟨fun _ => exec_decBlock_eight, fun s _ h => exec_decBlock_of_ne_eight h s, fun _ => exec_decBlock_of_no_key,
    encode_decBlock 8, fun n _ => encode_decBlock n,
    fun x n w h1 h8 => ⟨decryptBlock_encryptBlock (pad x n) w, trimLen_pad_eq_iff x h1 h8⟩, ?exampleBlock⟩
  case exampleBlock =>
    intro s hk hw hd
    have hplain : decryptBlock s.din s.w = ⟨unpack32 0x41424300#32, unpack32 0x00000000#32⟩ := by
      rw [hw, hd, keySchedule_exampleKey]; decide
    refine ⟨_, exec_decBlock_eight hk, ?_, hplain⟩
    change BitVec.ofNat 4 (trimLen (decryptBlock s.din s.w)) = _
    rw [hplain]
    decide

/-! ## What a block command depends on (R187) -/

/-- `u` agrees with `s` on all that R187 lets a block command read: DIN, W and, for the error check, KEY_VALID. -/
structure SameBlockOperands (s u : State) : Prop where
  din : u.din = s.din
  w : u.w = s.w
  keyValid : u.keyValid = s.keyValid

/-- A checked command whose checks and output are functions of these operands answers all states that agree on them
alike. -/
theorem checked_output_of_sameOperands {cs : State → List (Bool × ErrCode)} {b : State → Bytes8} {m : State → Nat}
    {s : State} (hcs : ∀ u, SameBlockOperands s u → cs u = cs s)
    (hout : ∀ u, SameBlockOperands s u → b u = b s ∧ m u = m s) :
    (∃ e, ∀ u, SameBlockOperands s u → checked (cs u) (fun t => t.output (b t) (m t)) u = .next (u.raise e)) ∨
    ∃ c n, ∀ u, SameBlockOperands s u →
      checked (cs u) (fun t => t.output (b t) (m t)) u = .next (u.output c n).succeed := by
  cases h : firstFailure (cs s) with
  | some e => exact .inl ⟨e, fun u hu => checked_of_some (by rw [hcs u hu, h]) _ u⟩
  | none =>
    refine .inr ⟨b s, m s, fun u hu => ?_⟩
    obtain ⟨hb, hm⟩ := hout u hu
    rw [checked_of_none (by rw [hcs u hu, h]), hb, hm]

/-- A block command answers all states with the same operands alike: with one error, or with one output and nothing
else. -/
theorem exec_block_of_sameOperands {n : Nat} {i : Instr} (hi : i = .encBlock n ∨ i = .decBlock n) (s : State) :
    (∃ e, ∀ u, SameBlockOperands s u → exec i u = .next (u.raise e)) ∨
    ∃ b m, ∀ u, SameBlockOperands s u → exec i u = .next (u.output b m).succeed := by
  rcases hi with rfl | rfl
  · exact checked_output_of_sameOperands (b := fun t => encryptBlock (pad t.din n) t.w) (m := fun _ => 8)
      (fun u hu => by rw [hu.keyValid]) (fun u hu => by rw [hu.din, hu.w]; exact ⟨rfl, rfl⟩)
  · exact checked_output_of_sameOperands (b := fun t => decryptBlock t.din t.w)
      (m := fun t => trimLen (decryptBlock t.din t.w))
      (fun u hu => by rw [hu.keyValid]) (fun u hu => by rw [hu.din, hu.w]; exact ⟨rfl, rfl⟩)

/-- Settles O35: another session has the same operands, and neither the error nor the output touches it. -/
theorem blockCommandsIgnoreTheSession : Obligations.BlockCommandsIgnoreTheSession := by
  intro n i hi s
  have hself : SameBlockOperands s s := ⟨rfl, rfl, rfl⟩
  rcases exec_block_of_sameOperands hi s with ⟨e, herr⟩ | ⟨b, m, hout⟩
  · exact ⟨fun f g a ended => ⟨_, herr s hself, herr _ ⟨rfl, rfl, rfl⟩, rfl, rfl, rfl, rfl⟩,
      fun u hdin hw hk => ⟨_, _, herr s hself, herr u ⟨hdin, hw, hk⟩, rfl, fun h0 => absurd h0 (errBits_ne_zero e)⟩⟩
  · exact ⟨fun f g a ended => ⟨_, hout s hself, hout _ ⟨rfl, rfl, rfl⟩, rfl, rfl, rfl, rfl⟩,
      fun u hdin hw hk => ⟨_, _, hout s hself, hout u ⟨hdin, hw, hk⟩, rfl, fun _ => ⟨rfl, rfl⟩⟩⟩

end Sys2Proof.Machine

/-! The statements of 43_cfb.md: the segment sizes and CFB_INIT (R211, R212), the feedback shifter and the byte
multiplexer (R214, R215), the two segment commands (R216 to R218), the stream programs (R219 to R222), and what a
session's registers carry (R223, R224). -/

namespace Sys2Proof.Machine

/-! ## Segment sizes and CFB_INIT (R211, R212) -/

theorem validSeg_iff (bits : Nat) : validSeg bits = true ↔ bits % 8 = 0 ∧ 1 ≤ bits / 8 ∧ bits / 8 ≤ 8 :=
  decide_eq_true_iff

/-- Settles O36: the sizes are the multiples of 8 whose quotient is 1 to 8. -/
theorem validSegmentSizes : Obligations.ValidSegmentSizes := by
  refine fun bits => ⟨validSeg_iff bits, ?_, fun h => ?_⟩
  · simp only [validSeg_iff, List.mem_cons, List.not_mem_nil, or_false]
    omega
  · rw [← Bool.not_eq_true, validSeg_iff]
    omega

/-- SEGBITS stands above OP and does not overlap it, so they add up (30_encoding.md R99). -/
theorem ofNat_or_segBits {op : Nat} (hop : op < 2 ^ 8) (bits : Nat) :
    BitVec.ofNat 32 op ||| segBits bits = BitVec.ofNat 32 (bits * 2 ^ 8 + op) := by
  have hshift : segBits bits = BitVec.ofNat 32 (bits <<< 8) := by
    rw [segBits, BitVec.shiftLeft_eq_mul_twoPow, Nat.shiftLeft_eq, BitVec.ofNat_mul]
    rfl
  rw [hshift, BitVec.or_comm, ← BitVec.ofNat_or, ← Nat.shiftLeft_add_eq_or_of_lt hop, Nat.shiftLeft_eq]

theorem encode_cfbInit (bits : Nat) : encode (.cfbInit bits) = BitVec.ofNat 32 (bits * 0x100 + 0x4) :=
  ofNat_or_segBits (by decide) bits

theorem exec_cfbInit_of_bad_size {bits : Nat} (hv : validSeg bits = false) (s : State) :
    exec (.cfbInit bits) s = .next (s.raise .invalidSegmentSize) :=
  checked_of_some (by rw [hv]; rfl) _ s

theorem exec_cfbInit_of_no_key {bits : Nat} (hv : validSeg bits = true) {s : State} (hk : s.keyValid = false) :
    exec (.cfbInit bits) s = .next (s.raise .keyNotLoaded) :=
  checked_of_some (by rw [hv, hk]; rfl) _ s

/-- The common shape of the segment loop and of opening a session (R219, R223): DIN, then a command. -/
theorem runEvents_setDin_hostCmd (v : Bytes8) {i : Instr} (hi : i.wellFormed = true) {s t : State}
    (hb : s.busy = false) (hx : exec i (State.latchCommand (encode i) { s with din := v }) = .next t) :
    runEvents (setDin v ++ hostCmd i) s = .next t := by
  rw [runEvents_append (runEvents_setDin v hb)]
  exact runEvents_hostCmd hi (s := { s with din := v }) hb hx

/-- Settles O37: the size is checked before KEY_VALID, and opening a session does not look at the one before it. -/
theorem cfbInitResult : Obligations.CfbInitResult := by
  refine ⟨fun _ _ => exec_cfbInit_of_valid, fun s _ hv => exec_cfbInit_of_bad_size hv s,
    fun _ _ hv hk => exec_cfbInit_of_no_key hv hk, encode_cfbInit 8, encode_cfbInit 64,
    fun n _ => encode_cfbInit n, ?example24⟩
  case example24 =>
    intro s hb hk
    exact ⟨_, runEvents_setDin_hostCmd (i := .cfbInit 24) _ rfl hb (exec_cfbInit_of_valid (by decide) hk), rfl, rfl,
      rfl⟩

/-! ## The feedback shifter and the byte multiplexer (R214, R215) -/

theorem list8_shiftFeedback (fb : Bytes8) {n : Nat} (hn : n ≤ 8) {c : List Byte} (hc : c.length = n) :
    list8 (shiftFeedback fb n c) = (list8 fb).drop n ++ c :=
  list8_toBytes8 _ (by rw [List.length_append, length_drop, hc, Nat.sub_add_cancel hn])

/-- Settles O38: the eight bytes are the 8 - n kept ones and the segment. -/
theorem shiftFeedbackBytes : Obligations.ShiftFeedbackBytes := by
  intro fb n c _ hn hc
  rw [list8_shiftFeedback fb hn hc]
  refine ⟨rfl, fun i hi => ?_, ?_⟩
  · rw [byteAt_append, if_pos (by rwa [List.length_drop, length_list8]), byteAt_drop, Nat.add_comm]
  · rintro rfl
    rfl

/-- What the multiplexer gives DOUT begins with its segment. -/
theorem take_segmentOut {y : List Byte} {n : Nat} (hn : n ≤ 8) (hy : y.length = n) : take (segmentOut y n) n = y := by
  rw [take, segmentOut, list8_toBytes8 _ (by rw [List.length_append, hy, length_zeros, Nat.add_sub_cancel' hn]),
    List.take_left' hy]

theorem byteAt_xorSeq {a b : List Byte} (h : a.length = b.length) (i : Nat) :
    byteAt (xorSeq a b) i = byteAt a i ^^^ byteAt b i := by
  by_cases hi : i < a.length
  · simp [byteAt, xorSeq, hi, h ▸ hi]
  · simp [byteAt, xorSeq, hi, h ▸ hi]

/-- XOR undoes itself, byte by byte (40_primitives.md R120). -/
theorem xorSeq_xorSeq_cancel {x k : List Byte} (h : x.length = k.length) : xorSeq (xorSeq x k) k = x :=
  List.ext_getElem (by simp [h]) fun i _ _ => by simp [xorSeq]

theorem byteAt_segmentXor (d o : Bytes8) {n k : Nat} (hk : k < n) :
    byteAt (segmentXor d o n) k = byteAt (list8 d) k ^^^ byteAt (list8 o) k := by
  rw [segmentXor, byteAt_xorSeq (by rw [length_take, length_take]), take, take, byteAt_take, byteAt_take, if_pos hk,
    if_pos hk]

theorem byteAt_segmentOut_segmentXor (d o : Bytes8) {n k : Nat} (hn : n ≤ 8) (hk : k < 8) :
    byteAt (list8 (segmentOut (segmentXor d o n) n)) k =
      if k < n then byteAt (list8 d) k ^^^ byteAt (list8 o) k else 0#8 := by
  have hlen : (segmentXor d o n).length = n := (length_segmentXor d o n).trans (Nat.min_eq_left hn)
  split
  · next hlt =>
    rw [segmentOut, byteAt_list8_toBytes8 _ hk, byteAt_append, if_pos (hlt.trans_eq hlen.symm),
      byteAt_segmentXor d o hlt]
  · next hge => exact Safety.byteAt_segmentOut_of_le (hlen.trans_le (Nat.not_lt.1 hge)) hk

theorem take_congr {d d' : Bytes8} {n : Nat} (h : ∀ k, k < n → byteAt (list8 d') k = byteAt (list8 d) k) :
    take d' n = take d n := by
  refine List.ext_getElem (by rw [length_take, length_take]) fun k hk _ => ?_
  rw [length_take, lt_min_iff] at hk
  obtain ⟨hkn, hk8⟩ := hk
  have hbyte := h k hkn
  rw [byteAt, byteAt, List.getD_eq_getElem _ _ hk8, List.getD_eq_getElem _ _ hk8] at hbyte
  exact (List.getElem_take ..).trans (hbyte.trans (List.getElem_take ..).symm)

/-! ## The two segment commands at once (R215 to R218)

They share their checks and the output; they differ in the segment that enters FB. -/

/-- `i` is a segment command of `n` bytes, and `c din o` is the ciphertext segment of the input `din` under the
keystream block `o`: the result of encryption, the input of decryption (R216, R217). -/
inductive SegmentCommand (n : Nat) : Instr → (Bytes8 → Bytes8 → List Byte) → Prop where
  | enc : SegmentCommand n (.cfbEncSeg n) fun din o => segmentXor din o n
  | dec : SegmentCommand n (.cfbDecSeg n) fun din _ => take din n

theorem exists_segmentCommand {n : Nat} {i : Instr} (hi : i = .cfbEncSeg n ∨ i = .cfbDecSeg n) :
    ∃ c, SegmentCommand n i c := by
  rcases hi with rfl | rfl
  · exact ⟨_, .enc⟩
  · exact ⟨_, .dec⟩

/-- The state after a segment command of `n` bytes that succeeds, where `c` is its ciphertext segment. -/
def State.afterSegment (n : Nat) (c : Bytes8 → Bytes8 → List Byte) (s : State) : State :=
  (segmentEffect n (fun t => c t.din (keystream t.fb t.w)) s).succeed

namespace SegmentCommand

variable {n : Nat} {i : Instr} {c : Bytes8 → Bytes8 → List Byte}

theorem exec_eq_checked (h : SegmentCommand n i c) (s : State) :
    exec i s = checked (segmentChecks n s) (segmentEffect n fun t => c t.din (keystream t.fb t.w)) s := by
  cases h with
  | enc => rfl
  | dec => rfl

theorem length_cipher (h : SegmentCommand n i c) (hn : n ≤ 8) (d o : Bytes8) : (c d o).length = n := by
  cases h with
  | enc => exact (length_segmentXor d o n).trans (Nat.min_eq_left hn)
  | dec => exact (length_take d n).trans (Nat.min_eq_left hn)

/-- The ciphertext segment depends on the leading bytes of DIN alone. -/
theorem cipher_congr (h : SegmentCommand n i c) {d d' : Bytes8} (hd : take d' n = take d n) (o : Bytes8) :
    c d' o = c d o := by
  cases h with
  | enc => simp only [segmentXor, hd]
  | dec => exact hd

theorem wellFormed (h : SegmentCommand n i c) (hn : n < 16) : i.wellFormed = true := by
  cases h with
  | enc => exact decide_eq_true hn
  | dec => exact decide_eq_true hn

/-! The errors in their order (R216; 60_exceptions.md R271), and success. -/

theorem exec_of_inactive (h : SegmentCommand n i c) {s : State} (ha : s.cfbActive = false) :
    exec i s = .next (s.raise .noSession) := by
  rw [h.exec_eq_checked]
  exact checked_of_some (firstFailure_segmentChecks_of_inactive ha n) _ s

theorem exec_of_ended (h : SegmentCommand n i c) {s : State} (ha : s.cfbActive = true) (he : s.cfbEnded = true) :
    exec i s = .next (s.raise .streamEnded) := by
  rw [h.exec_eq_checked]
  exact checked_of_some (by simp [segmentChecks, ha, he]) _ s

theorem exec_of_bad_length (h : SegmentCommand n i c) {s : State} (ha : s.cfbActive = true) (he : s.cfbEnded = false)
    (hn : n < 1 ∨ s.segBytes.toNat < n) : exec i s = .next (s.raise .badLength) := by
  rw [h.exec_eq_checked]
  exact checked_of_some (by rw [segmentChecks, ha, he, decide_eq_true hn]; rfl) _ s

theorem exec_of_open (h : SegmentCommand n i c) {s : State} (ha : s.cfbActive = true) (he : s.cfbEnded = false)
    (h1 : 1 ≤ n) (hn : n ≤ s.segBytes.toNat) : exec i s = .next (s.afterSegment n c) := by
  rw [h.exec_eq_checked]
  exact checked_of_none (segmentChecks_none.2 ⟨ha, he, h1, hn⟩) _ s

/-- Another DIN with the same leading bytes is carried through and changes nothing else. -/
theorem afterSegment_withDin (h : SegmentCommand n i c) {s : State} {d : Bytes8} (hd : take d n = take s.din n) :
    State.afterSegment n c { s with din := d } = { s.afterSegment n c with din := d } := by
  simp only [State.afterSegment, segmentEffect_eq, segmentXor, hd, h.cipher_congr hd]
  rfl

end SegmentCommand

/-- All that a segment command writes where it succeeds, in a session that has not ended before. -/
theorem State.afterSegment_eq {n : Nat} {c : Bytes8 → Bytes8 → List Byte} {s : State} (he : s.cfbEnded = false) :
    s.afterSegment n c = { s with
      dout := segmentOut (segmentXor s.din (keystream s.fb s.w) n) n
      fb := shiftFeedback s.fb n (c s.din (keystream s.fb s.w))
      cfbEnded := decide (n < s.segBytes.toNat), outLen := BitVec.ofNat 4 n, errCode := 0#4 } := by
  rw [State.afterSegment, segmentEffect_eq, he, Bool.false_or]
  rfl

/-- Settles O39: the multiplexer's bytes are known one by one, and both segments come from the leading bytes of DIN. -/
theorem segmentOutputBytes : Obligations.SegmentOutputBytes := by
  intro n i hi s ha he h1 hn h8
  obtain ⟨c, hc⟩ := exists_segmentCommand hi
  refine ⟨_, hc.exec_of_open ha he h1 hn, fun k hk => ?_, fun d hd => ?_⟩
  · exact byteAt_segmentOut_segmentXor s.din (keystream s.fb s.w) (hn.trans h8) hk
  · rw [← hc.afterSegment_withDin (take_congr hd)]
    exact hc.exec_of_open (s := { s with din := d }) ha he h1 hn

/-! ## CFB_ENC_SEG and CFB_DEC_SEG (R216, R217) -/

theorem encode_cfbEncSeg (len : Nat) : encode (.cfbEncSeg len) = BitVec.ofNat 32 (len * 0x10000 + 0x5) :=
  ofNat_or_lenBits (by decide) len

theorem encode_cfbDecSeg (len : Nat) : encode (.cfbDecSeg len) = BitVec.ofNat 32 (len * 0x10000 + 0x6) :=
  ofNat_or_lenBits (by decide) len

/-- The keystream block of the rules' examples. -/
theorem keystream_example {s : State} (hfb : s.fb = Bytes8.zeros) (hw : s.w = keySchedule Bytes8.zeros) :
    keystream s.fb s.w = ⟨unpack32 0xE86C3633#32, unpack32 0xA90EF50F#32⟩ := by
  rw [hfb, hw]
  exact encryptBlockRounds.2

/-- Settles O40: the ciphertext is the output, and enters FB. -/
theorem cfbEncSegResult : Obligations.CfbEncSegResult := by
  refine ⟨?success, fun _ _ ha => SegmentCommand.enc.exec_of_inactive ha,
    fun _ _ ha he => SegmentCommand.enc.exec_of_ended ha he,
    fun _ _ ha he hn => SegmentCommand.enc.exec_of_bad_length ha he hn, fun n _ => encode_cfbEncSeg n, ?example8⟩
  case success =>
    rintro s n _ ha he h1 hn h8 rfl
    refine ⟨SegmentCommand.enc.length_cipher (hn.trans h8) s.din _, ?_, ?_⟩
    · exact (SegmentCommand.enc.exec_of_open ha he h1 hn).trans (congrArg _ (State.afterSegment_eq he))
    · rintro rfl
      have hdrop : (list8 s.fb).drop 8 = [] := rfl
      have hpad : zeros (8 - 8) = [] := rfl
      rw [hdrop, hpad, List.nil_append, List.append_nil]
  case example8 =>
    intro s ha he hseg hfb hw hd
    refine ⟨_, SegmentCommand.enc.exec_of_open ha he (by decide) (by rw [hseg]; decide), rfl, ?_, ?_⟩
    · change segmentOut (segmentXor s.din (keystream s.fb s.w) 8) 8 = _
      rw [keystream_example hfb hw, hd]
      decide
    · change shiftFeedback s.fb 8 (segmentXor s.din (keystream s.fb s.w) 8) = _
      rw [keystream_example hfb hw, hd, hfb]
      decide

/-- Settles O41: the input is the ciphertext, and enters FB. -/
theorem cfbDecSegResult : Obligations.CfbDecSegResult := by
  refine ⟨?success, fun _ _ ha => SegmentCommand.dec.exec_of_inactive ha,
    fun _ _ ha he => SegmentCommand.dec.exec_of_ended ha he,
    fun _ _ ha he hn => SegmentCommand.dec.exec_of_bad_length ha he hn, fun n _ => encode_cfbDecSeg n, ?example8⟩
  case success =>
    rintro s n _ ha he h1 hn - rfl
    exact (SegmentCommand.dec.exec_of_open ha he h1 hn).trans (congrArg _ (State.afterSegment_eq he))
  case example8 =>
    intro s ha he hseg hfb hw hd
    refine ⟨_, SegmentCommand.dec.exec_of_open ha he (by decide) (by rw [hseg]; decide), ?_, ?_⟩
    · change segmentOut (segmentXor s.din (keystream s.fb s.w) 8) 8 = _
      rw [keystream_example hfb hw, hd]
      decide
    · change shiftFeedback s.fb 8 (take s.din 8) = _
      rw [hd, hfb]
      decide

/-! ## The end of a session (R218) -/

theorem exec_keeps_ended {i : Instr} {s t : State} (h : exec i s = .next t) (he : s.cfbEnded = true) :
    t.cfbEnded = true ∨ i = .clear ∨ i = .keyLoad 8 ∨ ∃ bits, i = .cfbInit bits := by
  rcases exec_cases h with ⟨e, rfl⟩ | ⟨-, rfl⟩ | ⟨rfl, -⟩ | ⟨rfl, -⟩ | ⟨len, -, -, rfl⟩ | ⟨-, -, rfl⟩ |
    ⟨bits, rfl, -, -, -⟩ | ⟨len, c, -, -, hopen, -⟩
  · exact .inl he
  · exact .inl he
  · exact .inr (.inl rfl)
  · exact .inr (.inr (.inl rfl))
  · exact .inl he
  · exact .inl he
  · exact .inr (.inr (.inr ⟨bits, rfl⟩))
  · rw [he] at hopen
    cases hopen

theorem step_keeps_ended {s t : State} (h : step s = .next t) (he : s.cfbEnded = true) :
    t.cfbEnded = true ∨ Safety.nextClears s ∨ Safety.nextCommand (.keyLoad 8) s ∨
      ∃ bits, Safety.nextCommand (.cfbInit bits) s := by
  rcases Safety.step_keeps_or_executes State.cfbEnded (by rintro s _ ⟨_, _, _, _, _, rfl⟩; rfl) State.raise_cfbEnded h
    with hkeep | hc | ⟨i, u, hi, hu, hx⟩
  · exact .inl (hkeep.trans he)
  · exact .inr (.inl hc)
  rcases exec_keeps_ended hx (hu.trans he) with ht | rfl | rfl | ⟨bits, rfl⟩
  · exact .inl ht
  · exact .inr (.inl (Safety.nextClears_of_nextCommand hi))
  · exact .inr (.inr (.inl hi))
  · exact .inr (.inr (.inr ⟨bits, hi⟩))

/-- Settles O42: the shift is by the segment's own length, and only a command that closes or opens a session writes
CFB_ENDED once it is 1. -/
theorem partialSegmentEndsTheSession : Obligations.PartialSegmentEndsTheSession := by
  refine ⟨fun n i hi s hs ha he h1 hn => ?ending, fun n i hi s hs he => ?ended, fun _ _ => step_keeps_ended⟩
  case ending =>
    obtain ⟨c, hc⟩ := exists_segmentCommand hi
    have h8 : n ≤ 8 := hn.le.trans hs.seg_le
    have hlen := hc.length_cipher h8 s.din (keystream s.fb s.w)
    refine ⟨_, c s.din (keystream s.fb s.w), hc.exec_of_open ha he h1 hn.le, rfl, hlen, ?_, ?_,
      list8_shiftFeedback s.fb h8 hlen, ?_⟩
    · rintro rfl
      cases hc
      exact (take_segmentOut h8 hlen).symm
    · rintro rfl
      cases hc
      rfl
    · rw [State.afterSegment_eq he]
      exact decide_eq_true hn
  case ended =>
    obtain ⟨c, hc⟩ := exists_segmentCommand hi
    exact hc.exec_of_ended (hs.ended_active he) he

/-! ## A session on an idle core -/

/-- An open session of `k`-byte segments on an idle core, with the subkeys `w` and the feedback `fb`. -/
structure OpenSession (k : Nat) (w : SubkeyFile) (fb : Bytes8) (s : State) : Prop where
  idle : s.busy = false
  active : s.cfbActive = true
  going : s.cfbEnded = false
  segBytes : s.segBytes.toNat = k
  one_le : 1 ≤ k
  le_eight : k ≤ 8
  w : s.w = w
  fb : s.fb = fb

theorem openSession_of_engineInv {s : State} (hs : Safety.EngineInv s) (ha : s.cfbActive = true)
    (he : s.cfbEnded = false) : OpenSession s.segBytes.toNat s.w s.fb s where
  idle := hs.idle
  active := ha
  going := he
  segBytes := rfl
  one_le := Nat.one_le_iff_ne_zero.2 fun h0 => by
    have hinactive : s.cfbActive = false := hs.seg_zero_iff.1 (BitVec.eq_of_toNat_eq h0)
    rw [ha] at hinactive
    cases hinactive
  le_eight := hs.seg_le
  w := rfl
  fb := rfl

/-- CFB_INIT as the host drives it (R212, R219). -/
theorem runEvents_cfbInit (iv : Bytes8) {bits : Nat} (hv : validSeg bits = true) {s : State} (hb : s.busy = false)
    (hk : s.keyValid = true) : ∃ t, runEvents (setDin iv ++ hostCmd (.cfbInit bits)) s = .next t ∧
      t.errCode = 0#4 ∧ OpenSession (bits / 8) s.w iv t := by
  obtain ⟨h1, h8⟩ := Safety.validSeg_bounds hv
  exact ⟨_, runEvents_setDin_hostCmd iv (i := .cfbInit bits) (segBitsFits_of_validSeg hv) hb
    (exec_cfbInit_of_valid hv hk), rfl, ⟨hb, rfl, rfl, Safety.toNat_nibble_of_le_eight h8, h1, h8, rfl, rfl⟩⟩

/-- A full segment leaves the session open. -/
theorem OpenSession.afterSegment {k : Nat} {w : SubkeyFile} {fb : Bytes8} {s : State} (h : OpenSession k w fb s)
    (c : Bytes8 → Bytes8 → List Byte) :
    OpenSession k w (shiftFeedback fb k (c s.din (keystream fb w))) (s.afterSegment k c) := by
  obtain ⟨hb, ha, he, rfl, h1, h8, rfl, rfl⟩ := h
  rw [State.afterSegment_eq he]
  exact ⟨hb, ha, decide_eq_false (lt_irrefl _), rfl, h1, h8, rfl, rfl⟩

/-- A segment as the host sends it: DIN, then the command. -/
theorem OpenSession.runEvents_segment {k : Nat} {w : SubkeyFile} {fb : Bytes8} {s : State} (h : OpenSession k w fb s)
    {n : Nat} {i : Instr} {c : Bytes8 → Bytes8 → List Byte} (hc : SegmentCommand n i c) (h1 : 1 ≤ n) (hn : n ≤ k)
    (d : Bytes8) : ∃ t, runEvents (setDin d ++ hostCmd i) s = .next t ∧ t.errCode = 0#4 ∧
      t.dout = segmentOut (segmentXor d (keystream fb w) n) n ∧
      (n = k → OpenSession k w (shiftFeedback fb n (c d (keystream fb w))) t) := by
  have h8 : k ≤ 8 := h.le_eight
  have hu : OpenSession k w fb (State.latchCommand (encode i) { s with din := d }) := { h with }
  refine ⟨_, runEvents_setDin_hostCmd d (hc.wellFormed (by omega)) h.idle
    (hc.exec_of_open hu.active hu.going h1 (hn.trans_eq hu.segBytes.symm)), rfl, ?_, ?_⟩
  · rw [← h.fb, ← h.w]
    rfl
  · rintro rfl
    exact hu.afterSegment c

/-- Two cores whose sessions and inputs agree answer a segment command alike, whatever else they hold. -/
theorem OpenSession.exec_segment_agree {k : Nat} {w : SubkeyFile} {fb : Bytes8} {s u : State}
    (hs : OpenSession k w fb s) (hu : OpenSession k w fb u) (hd : u.din = s.din) {n : Nat} {i : Instr}
    {c : Bytes8 → Bytes8 → List Byte} (hc : SegmentCommand n i c) :
    ∃ a b, exec i s = .next a ∧ exec i u = .next b ∧ a.errCode = b.errCode ∧ a.fb = b.fb ∧
      a.cfbEnded = b.cfbEnded ∧ (a.errCode = 0#4 → a.dout = b.dout ∧ a.outLen = b.outLen) := by
  obtain ⟨-, ha, he, rfl, -, -, rfl, rfl⟩ := hs
  obtain ⟨-, hua, hue, hseg, -, -, hw, hfb⟩ := hu
  by_cases hn : n < 1 ∨ s.segBytes.toNat < n
  · exact ⟨_, _, hc.exec_of_bad_length ha he hn, hc.exec_of_bad_length hua hue (hseg ▸ hn), rfl, hfb.symm,
      he.trans hue.symm, fun h0 => absurd h0 (errBits_ne_zero .badLength)⟩
  · have h1 : 1 ≤ n := by omega
    have hle : n ≤ s.segBytes.toNat := by omega
    refine ⟨_, _, hc.exec_of_open ha he h1 hle, hc.exec_of_open hua hue h1 (hseg ▸ hle), ?_⟩
    rw [State.afterSegment_eq he, State.afterSegment_eq hue, hseg, hw, hfb, hd]
    exact ⟨rfl, rfl, rfl, fun _ => ⟨rfl, rfl⟩⟩

/-! ## The stream programs (R219 to R222) -/

/-- `x` is the segment that the loop of R219 takes off the front of the message `x ++ rest`. -/
structure IsSegment (k : Nat) (x rest : List Byte) : Prop where
  one_le : 1 ≤ x.length
  le : x.length ≤ k
  last : x.length < k → rest = []

namespace IsSegment

variable {k : Nat} {x rest : List Byte}

theorem append_ne_nil (h : IsSegment k x rest) : x ++ rest ≠ [] :=
  List.append_ne_nil_of_left_ne_nil (List.length_pos_iff.1 h.one_le) rest

/-- The loop has a turn for the segment, and enough turns for what follows it. -/
theorem exists_fuel (h : IsSegment k x rest) {fuel : Nat} (hfuel : (x ++ rest).length ≤ fuel) :
    ∃ m, fuel = m + 1 ∧ rest.length ≤ m := by
  have h1 : 1 ≤ x.length := h.one_le
  rw [List.length_append] at hfuel
  exact ⟨fuel - 1, by omega, by omega⟩

theorem eq_nil_or_full (h : IsSegment k x rest) : rest = [] ∨ x.length = k := h.le.lt_or_eq.imp_left h.last

/-- Only the lengths count. -/
theorem congr (h : IsSegment k x rest) {y out : List Byte} (hy : y.length = x.length)
    (hout : out.length = rest.length) : IsSegment k y out where
  one_le := hy ▸ h.one_le
  le := hy ▸ h.le
  last hlt := List.length_eq_zero_iff.1 (by rw [hout, h.last (hy ▸ hlt)]; rfl)

end IsSegment

/-- A message is empty, or a segment and a message. -/
theorem segment_induction {k : Nat} (hk : 1 ≤ k) {P : List Byte → Prop} (nil : P [])
    (append : ∀ x rest, IsSegment k x rest → P rest → P (x ++ rest)) (p : List Byte) : P p := by
  by_cases hp : p = []
  · exact hp ▸ nil
  · have hlen : 1 ≤ p.length := List.length_pos_iff.2 hp
    have hdrop : (p.drop k).length < p.length := by rw [List.length_drop]; omega
    have hseg : IsSegment k (p.take k) (p.drop k) :=
      { one_le := by rw [List.length_take]; omega
        le := List.length_take_le k p
        last := fun h => List.drop_eq_nil_of_le (by rw [List.length_take] at h; omega) }
    rw [← List.take_append_drop k p]
    exact append _ _ hseg (segment_induction hk nil append (p.drop k))
  termination_by p.length

theorem streamSegments_nil (seg : Nat → Instr) (k fuel : Nat) (s : State) :
    streamSegments seg k fuel [] s = some [] := by cases fuel <;> rfl

/-- One turn of the loop, where its command succeeds. -/
theorem streamSegments_of_afterSuccess {seg : Nat → Instr} {k : Nat} {x rest : List Byte} (hx : IsSegment k x rest)
    {s t : State} (ht : afterSuccess (setDin (segmentOut x x.length) ++ hostCmd (seg x.length)) s = some t)
    (fuel : Nat) :
    streamSegments seg k (fuel + 1) (x ++ rest) s =
      (streamSegments seg k fuel rest t).map (take t.dout x.length ++ ·) := by
  obtain ⟨h1, hle, hlast⟩ := hx
  have hmin : min k (x ++ rest).length = x.length := by
    rcases hle.lt_or_eq with hlt | heq
    · rw [hlast hlt, List.append_nil, Nat.min_eq_right hle]
    · rw [← heq, List.length_append, Nat.min_eq_left (Nat.le_add_right ..)]
  obtain ⟨b, bs, hcons⟩ : ∃ b bs, x ++ rest = b :: bs :=
    List.exists_cons_of_length_pos (by rw [List.length_append]; omega)
  rw [hcons] at hmin ⊢
  rw [streamSegments, hmin, ← hcons, List.take_left, List.drop_left]
  have hturn : afterSuccess (setDin (toBytes8 (x ++ zeros (8 - x.length))) ++ hostCmd (seg x.length)) s = some t := ht
  rw [hturn]
  dsimp only
  cases streamSegments seg k fuel rest t with
  | none => rfl
  | some out => rfl

/-- XOR with the leading `n` bytes of a block keeps a segment of `n` bytes that long. -/
theorem length_xorSeq_take {x : List Byte} {n : Nat} (hn : x.length = n) (h8 : n ≤ 8) (o : Bytes8) :
    (xorSeq x (take o n)).length = n := by
  rw [length_xorSeq, length_take, Nat.min_eq_left h8, hn, min_self]

theorem segmentXor_segmentOut {x : List Byte} {n : Nat} (hn : x.length = n) (h8 : n ≤ 8) (o : Bytes8) :
    segmentXor (segmentOut x n) o n = xorSeq x (take o n) := by
  rw [segmentXor, take_segmentOut h8 hn]

/-- The segment `x` through the loop: what it adds to the result, and the session that is left for what follows it,
which is empty where `x` is a partial segment. -/
theorem OpenSession.streamSegments_segment {k : Nat} {w : SubkeyFile} {fb : Bytes8} {s : State}
    (h : OpenSession k w fb s) {seg : Nat → Instr} {n : Nat} {c : Bytes8 → Bytes8 → List Byte}
    (hc : SegmentCommand n (seg n) c) {x : List Byte} (hn : x.length = n) (h1 : 1 ≤ n) (hk : n ≤ k) :
    ∃ t, (∀ fuel rest, IsSegment k x rest → streamSegments seg k (fuel + 1) (x ++ rest) s =
        (streamSegments seg k fuel rest t).map (xorSeq x (take (keystream fb w) n) ++ ·)) ∧
      (n = k → OpenSession k w (shiftFeedback fb n (c (segmentOut x n) (keystream fb w))) t) := by
  have h8 : n ≤ 8 := hk.trans h.le_eight
  obtain ⟨t, ht, h0, hout, hopen⟩ := h.runEvents_segment hc h1 hk (segmentOut x n)
  have htake : take t.dout n = xorSeq x (take (keystream fb w) n) := by
    rw [hout, segmentXor_segmentOut hn h8, take_segmentOut h8 (length_xorSeq_take hn h8 _)]
  refine ⟨t, fun fuel rest hx => ?_, hopen⟩
  subst hn
  rw [streamSegments_of_afterSuccess hx (afterSuccess_of_next ht h0), htake]

/-- Segment by segment the result is as long as the message (R222). -/
theorem streamSegments_keeps_length {seg : Nat → Instr} (hseg : ∀ n, ∃ c, SegmentCommand n (seg n) c) {k : Nat}
    (hk : 1 ≤ k) {w : SubkeyFile} (p : List Byte) : ∀ {fuel : Nat} {fb : Bytes8} {s : State}, p.length ≤ fuel →
      p = [] ∨ OpenSession k w fb s → ∃ c, streamSegments seg k fuel p s = some c ∧ c.length = p.length := by
  induction p using segment_induction hk with
  | nil => exact fun _ _ => ⟨[], streamSegments_nil .., rfl⟩
  | append x rest hx ih =>
    intro fuel fb s hfuel hs
    obtain ⟨fuel, rfl, hrest⟩ := hx.exists_fuel hfuel
    have hs : OpenSession k w fb s := hs.resolve_left hx.append_ne_nil
    obtain ⟨c, hc⟩ := hseg x.length
    obtain ⟨t, hturn, hopen⟩ := hs.streamSegments_segment hc rfl hx.one_le hx.le
    obtain ⟨out, hout, hlen⟩ := ih hrest (hx.eq_nil_or_full.imp_right hopen)
    refine ⟨xorSeq x (take (keystream fb w) x.length) ++ out, by rw [hturn fuel rest hx, hout]; rfl, ?_⟩
    rw [List.length_append, List.length_append, hlen, length_xorSeq_take rfl (hx.le.trans hs.le_eight)]

/-- The two loops keep their sessions in step, because the ciphertext enters both FBs (R221). -/
theorem streamSegments_round_trip {k : Nat} (hk : 1 ≤ k) {w : SubkeyFile} (p : List Byte) :
    ∀ {fuel : Nat} {fb : Bytes8} {s s' : State}, p.length ≤ fuel →
      p = [] ∨ (OpenSession k w fb s ∧ OpenSession k w fb s') →
      ∃ c, c.length = p.length ∧ streamSegments .cfbEncSeg k fuel p s = some c ∧
        streamSegments .cfbDecSeg k fuel c s' = some p := by
  induction p using segment_induction hk with
  | nil => exact fun _ _ => ⟨[], rfl, streamSegments_nil .., streamSegments_nil ..⟩
  | append x rest hx ih =>
    intro fuel fb s s' hfuel hs
    obtain ⟨fuel, rfl, hrest⟩ := hx.exists_fuel hfuel
    obtain ⟨hs, hs'⟩ := hs.resolve_left hx.append_ne_nil
    have h8 : x.length ≤ 8 := hx.le.trans hs.le_eight
    have hlen := length_xorSeq_take (x := x) rfl h8 (keystream fb w)
    have hcipher := segmentXor_segmentOut (x := x) rfl h8 (keystream fb w)
    have hback := xorSeq_xorSeq_cancel (x := x) (k := take (keystream fb w) x.length)
      (by rw [length_take, Nat.min_eq_left h8])
    obtain ⟨t, henc, hopen⟩ := hs.streamSegments_segment .enc (x := x) rfl hx.one_le hx.le
    rw [hcipher] at hopen
    -- `y` is the ciphertext segment: the output of the one loop and the input of the other.
    generalize xorSeq x (take (keystream fb w) x.length) = y at *
    obtain ⟨t', hdec, hopen'⟩ := hs'.streamSegments_segment .dec hlen hx.one_le hx.le
    rw [take_segmentOut h8 hlen] at hopen'
    obtain ⟨out, hout, henc', hdec'⟩ := ih hrest (hx.eq_nil_or_full.imp_right fun hf => ⟨hopen hf, hopen' hf⟩)
    refine ⟨y ++ out, by rw [List.length_append, List.length_append, hlen, hout], ?_, ?_⟩
    · rw [henc fuel rest hx, henc']
      rfl
    · rw [hdec fuel out (hx.congr hlen hout), hdec', hback]
      rfl

/-! ### The programs around the loop -/

theorem afterSuccess_of_error {es : List HostEvent} {s t : State} (h : runEvents es s = .next t)
    (h0 : t.errCode ≠ 0#4) : afterSuccess es s = none := by simp [afterSuccess, h, h0]

theorem afterSuccess_loadKey (key : Bytes8) {s : State} (hb : s.busy = false) :
    ∃ t, afterSuccess (setKey key ++ hostCmd (.keyLoad 8)) s = some t ∧ t.busy = false ∧ t.keyValid = true ∧
      t.w = keySchedule key := by
  have hrun := (runEvents_append (runEvents_setKey key hb) _).trans
    (runEvents_hostCmd (s := { s with key := key }) rfl hb (exec_keyLoad_eight _))
  exact ⟨_, afterSuccess_of_next hrun rfl, hb, rfl, rfl⟩

/-- The programs of R219 and R220 up to their loop: the key is loaded and a session opened with the IV. -/
theorem cfbStream_of_valid (key iv : Bytes8) {bits : Nat} (hv : validSeg bits = true) {s : State}
    (hb : s.busy = false) : ∃ t, OpenSession (bits / 8) (keySchedule key) iv t ∧
      ∀ seg msg, cfbStream seg key iv msg bits s = streamSegments seg (bits / 8) msg.length msg t := by
  obtain ⟨u, hu, hub, huk, huw⟩ := afterSuccess_loadKey key hb
  obtain ⟨t, ht, h0, hopen⟩ := runEvents_cfbInit iv hv hub huk
  rw [huw] at hopen
  refine ⟨t, hopen, fun seg msg => ?_⟩
  rw [cfbStream, if_pos (of_decide_eq_true (segBitsFits_of_validSeg hv)), hu]
  dsimp only
  rw [afterSuccess_of_next ht h0]

/-- A bad size is one that CFB_INIT rejects, or one that SEGBITS cannot carry (log entry 13). -/
theorem cfbStream_of_bad_size (seg : Nat → Instr) (key iv : Bytes8) (msg : List Byte) {bits : Nat}
    (hv : validSeg bits = false) {s : State} (hb : s.busy = false) : cfbStream seg key iv msg bits s = none := by
  obtain ⟨u, hu, hub, -, -⟩ := afterSuccess_loadKey key hb
  rw [cfbStream, hu]
  split
  · next hfits =>
    have hrun := runEvents_setDin_hostCmd iv (i := .cfbInit bits) (decide_eq_true hfits) hub
      (exec_cfbInit_of_bad_size hv _)
    dsimp only
    rw [afterSuccess_of_error hrun (errBits_ne_zero .invalidSegmentSize)]
  · rfl

/-- Settles O43: both programs open a session with the same key, IV and size, and their loops keep in step. -/
theorem cfbStreamRoundTrip : Obligations.CfbStreamRoundTrip := by
  intro key iv p bits s s' hb hb' hv
  obtain ⟨t, hopen, hrun⟩ := cfbStream_of_valid key iv hv hb
  obtain ⟨t', hopen', hrun'⟩ := cfbStream_of_valid key iv hv hb'
  obtain ⟨c, hlen, henc, hdec⟩ := streamSegments_round_trip hopen.one_le p le_rfl (.inr ⟨hopen, hopen'⟩)
  exact ⟨c, (hrun .cfbEncSeg p).trans henc, (hrun' .cfbDecSeg c).trans (hlen ▸ hdec)⟩

/-- Settles O44: the loop does not look at which segment command it issues. -/
theorem cfbStreamKeepsLength : Obligations.CfbStreamKeepsLength := by
  intro key iv p bits s hb hv
  obtain ⟨t, hopen, hrun⟩ := cfbStream_of_valid key iv hv hb
  have hlength (seg : Nat → Instr) (hseg : ∀ n, ∃ c, SegmentCommand n (seg n) c) :
      ∃ c, cfbStream seg key iv p bits s = some c ∧ c.length = p.length := by
    rw [hrun seg p]
    exact streamSegments_keeps_length hseg hopen.one_le p le_rfl (.inr hopen)
  exact ⟨hlength .cfbEncSeg fun _ => ⟨_, .enc⟩, hlength .cfbDecSeg fun _ => ⟨_, .dec⟩⟩

/-- Settles O45: a bad size ends both programs before their loop, and on an empty message the loop does nothing. -/
theorem cfbStreamEdgeCases : Obligations.CfbStreamEdgeCases := by
  intro key iv p bits s hb
  refine ⟨fun hv => ⟨cfbStream_of_bad_size _ key iv p hv hb, cfbStream_of_bad_size _ key iv p hv hb⟩, fun hv => ?_⟩
  obtain ⟨t, -, hrun⟩ := cfbStream_of_valid key iv hv hb
  exact ⟨(hrun .cfbEncSeg []).trans (streamSegments_nil ..), (hrun .cfbDecSeg []).trans (streamSegments_nil ..)⟩

/-! ## Session save and restore (R223) -/

theorem OpenSession.withDin {k : Nat} {w : SubkeyFile} {fb : Bytes8} {s : State} (h : OpenSession k w fb s)
    (d : Bytes8) : OpenSession k w fb { s with din := d } := { h with }

/-- Settles O46: the restored session has the paused one's segment size, subkeys and feedback. -/
theorem sessionSaveAndRestore : Obligations.SessionSaveAndRestore := by
  intro s u hs ha he hub huk huw
  have hopen := openSession_of_engineInv hs ha he
  have hdiv : 8 * s.segBytes.toNat / 8 = s.segBytes.toNat := Nat.mul_div_cancel_left _ (by decide)
  have hv : validSeg (8 * s.segBytes.toNat) = true :=
    (validSeg_iff _).2 ⟨Nat.mul_mod_right .., hdiv.symm ▸ hopen.one_le, hdiv.symm ▸ hopen.le_eight⟩
  obtain ⟨t, ht, h0, htopen⟩ := runEvents_cfbInit s.fb hv hub huk
  rw [hdiv, huw] at htopen
  refine ⟨t, ht, htopen.fb, BitVec.eq_of_toNat_eq htopen.segBytes, htopen.active, htopen.going, h0, fun n i hi d => ?_⟩
  obtain ⟨c, hc⟩ := exists_segmentCommand hi
  exact (htopen.withDin d).exec_segment_agree (hopen.withDin d) rfl hc

/-! ## Self-synchronisation (R224) -/

/-- FB after the full ciphertext segments in the leading `k` bytes of `segs`, from `fb` (R214, R217). -/
def feedbackAfter (k : Nat) (fb : Bytes8) (segs : List Bytes8) : Bytes8 :=
  segs.foldl (fun f d => shiftFeedback f k (take d k)) fb

theorem OpenSession.runEvents_decSegs {k : Nat} {w : SubkeyFile} (segs : List Bytes8) {fb : Bytes8} {s : State}
    (h : OpenSession k w fb s) :
    ∃ t, runEvents (segs.flatMap fun d => setDin d ++ hostCmd (.cfbDecSeg k)) s = .next t ∧
      OpenSession k w (feedbackAfter k fb segs) t := by
  induction segs generalizing fb s with
  | nil => exact ⟨s, rfl, h⟩
  | cons d segs ih =>
    obtain ⟨u, hu, -, -, hopen⟩ := h.runEvents_segment .dec h.one_le le_rfl d
    obtain ⟨t, ht, htopen⟩ := ih (hopen rfl)
    exact ⟨t, by rw [List.flatMap_cons, runEvents_append hu, ht], htopen⟩

/-- FB holds the last eight bytes of what it held before, followed by the ciphertext. -/
theorem list8_feedbackAfter {k : Nat} (hk : k ≤ 8) (segs : List Bytes8) (fb : Bytes8) :
    list8 (feedbackAfter k fb segs) = (list8 fb ++ segs.flatMap (take · k)).drop (segs.length * k) := by
  induction segs generalizing fb with
  | nil => simp [feedbackAfter]
  | cons d segs ih =>
    have hd : (take d k).length = k := (length_take d k).trans (Nat.min_eq_left hk)
    have hkeep (l : List Byte) : (list8 fb ++ l).drop k = (list8 fb).drop k ++ l :=
      List.drop_append_of_le_length (by rwa [length_list8])
    calc list8 (feedbackAfter k fb (d :: segs))
      _ = (list8 (shiftFeedback fb k (take d k)) ++ segs.flatMap (take · k)).drop (segs.length * k) := ih _
      _ = ((list8 fb ++ (d :: segs).flatMap (take · k)).drop k).drop (segs.length * k) := by
        rw [list8_shiftFeedback fb hk hd, List.flatMap_cons, hkeep, List.append_assoc]
      _ = (list8 fb ++ (d :: segs).flatMap (take · k)).drop ((d :: segs).length * k) := by
        rw [List.drop_drop, List.length_cons, Nat.succ_mul, Nat.add_comm k]

/-- Eight bytes of ciphertext push out all that FB held. -/
theorem feedbackAfter_congr {k : Nat} (hk : k ≤ 8) {segs : List Bytes8} (h : 8 ≤ segs.length * k) (fb fb' : Bytes8) :
    feedbackAfter k fb segs = feedbackAfter k fb' segs := by
  have hbytes (f : Bytes8) :
      list8 (feedbackAfter k f segs) = (segs.flatMap (take · k)).drop (segs.length * k - 8) := by
    rw [list8_feedbackAfter hk, List.drop_append, List.drop_of_length_le h, List.nil_append, length_list8]
  rw [← toBytes8_list8 (feedbackAfter k fb segs), hbytes fb, ← hbytes fb', toBytes8_list8]

theorem eight_le_mul_of_ceil_le {k m : Nat} (hk : 1 ≤ k) (h : (8 + k - 1) / k ≤ m) : 8 ≤ m * k := by
  have hlt : 8 + k - 1 < (m + 1) * k := (Nat.div_lt_iff_lt_mul hk).1 (Nat.lt_succ_of_le h)
  rw [Nat.succ_mul] at hlt
  omega

/-- Settles O47: so much ciphertext leaves the same FB in both sessions, and their W and segment size were the same. -/
theorem cfbSelfSynchronises : Obligations.CfbSelfSynchronises := by
  intro s s' segs hs hs' ha ha' he he' hseg hw hlen
  have hopen := openSession_of_engineInv hs ha he
  have hopen' := openSession_of_engineInv hs' ha' he'
  rw [← hseg, ← hw] at hopen'
  obtain ⟨t, ht, htopen⟩ := hopen.runEvents_decSegs segs
  obtain ⟨t', ht', htopen'⟩ := hopen'.runEvents_decSegs segs
  rw [← feedbackAfter_congr hopen.le_eight (eight_le_mul_of_ceil_le hopen.one_le hlen) s.fb s'.fb] at htopen'
  refine ⟨t, t', ht, ht', htopen.fb.trans htopen'.fb.symm, fun n d => ?_⟩
  obtain ⟨a, a', hx, hx', herr, hfb, -, hout⟩ :=
    (htopen.withDin d).exec_segment_agree (htopen'.withDin d) rfl (SegmentCommand.dec (n := n))
  exact ⟨a, a', hx, hx', herr, fun h0 => ⟨(hout h0).1, hfb⟩⟩

end Sys2Proof.Machine

/-! The statements of 44_control.md: which command a step runs and how it ends (R240, R241), the register window (R244,
R245), STATUS (R246), and NOP and CLEAR (R242, R243). -/

namespace Sys2Proof.Machine

/-! ## Commands (R240, R241) -/

theorem writeCommand_of_decode {v : Word} {i : Instr} (h : decode v = .ok i) (s : State) :
    writeCommand v s = exec i (s.latchCommand v) := by
  rw [writeCommand, h]

/-- A word that decodes to no command fits no row. -/
theorem writeCommand_of_no_command {v : Word} (h : ∀ i, decode v ≠ .ok i) (s : State) :
    writeCommand v s = .next { s with cmd := v, errCode := 0x3#4, err := true } :=
  writeCommand_of_no_row (fun _ hr => Bool.eq_false_of_not_eq_true fun hv => h _ (decode_of_fits hr hv)) s

/-- Settles O6: the oldest event is a CMD write to an idle core. -/
theorem stepRunsDecodedCommand : Obligations.StepRunsDecodedCommand := by
  intro s v rest hb hp
  have hstep : step s = writeCommand v (s.withPending rest) := (step_of_pending hp).trans (perform_command hb)
  exact ⟨fun i hi => hstep.trans (writeCommand_of_decode hi _),
    fun hno => hstep.trans (writeCommand_of_no_command hno _)⟩

/-- Settles O49: an error is the error effect alone, and of the commands' own effects only CLEAR's touches ERR. -/
theorem everyCommandSucceedsOrRaises : Obligations.EveryCommandSucceedsOrRaises := by
  intro i s
  obtain ⟨t, ht⟩ := exec_next i s
  refine ⟨t, ht, ?_⟩
  rcases exec_cases ht with ⟨e, rfl⟩ | ⟨-, rfl⟩ | ⟨rfl, rfl⟩ | ⟨-, rfl⟩ | ⟨len, -, -, rfl⟩ | ⟨-, -, rfl⟩ |
    ⟨bits, -, -, -, rfl⟩ | ⟨len, c, -, -, -, -, -, rfl⟩
  · exact .inr ⟨e, rfl⟩
  · exact .inl ⟨rfl, fun _ => rfl⟩
  · exact .inl ⟨rfl, fun h => absurd rfl h⟩
  · exact .inl ⟨rfl, fun _ => rfl⟩
  · exact .inl ⟨rfl, fun _ => rfl⟩
  · exact .inl ⟨rfl, fun _ => rfl⟩
  · exact .inl ⟨rfl, fun _ => rfl⟩
  · exact .inl ⟨rfl, fun _ => rfl⟩

/-! ## The register window (R244, R245) -/

/-- R64: an offset at which no register stands reads 0. -/
theorem regOffset_or_busRead_eq_zero (off : Nat) :
    (∃ r, off = regOffset r) ∨ ∀ s, busRead off s = 0x00000000#32 := by
  cases h : regAt off with
  | some r => exact .inl ⟨r, regAt_eq_some h⟩
  | none => exact .inr fun s => by rw [busRead, h]

theorem regOffset_not_reserved (r : Reg) : regOffset r ≠ 0x0C ∧ regOffset r < 0x48 := by
  cases r with
  | sk j => simp only [regOffset]; omega
  | _ => decide

theorem busRead_reserved {off : Nat} (h : off = 0x0C ∨ 0x48 ≤ off) (s : State) : busRead off s = 0x00000000#32 := by
  obtain ⟨r, rfl⟩ | h0 := regOffset_or_busRead_eq_zero off
  · obtain ⟨hne, hlt⟩ := regOffset_not_reserved r
    omega
  · exact h0 s

/-- Settles O11: a register is read at its offset, and a read of an idle core is admitted. -/
theorem registerMapReads : Obligations.RegisterMapReads := fun s =>
  ⟨busRead_regOffset .id s, busRead_regOffset .cmd s, busRead_regOffset .status s, busRead_regOffset .key0 s,
    busRead_regOffset .key1 s, busRead_regOffset .din0 s, busRead_regOffset .din1 s, busRead_regOffset .dout0 s,
    busRead_regOffset .dout1 s, busRead_regOffset .fb0 s, busRead_regOffset .fb1 s,
    fun j => busRead_regOffset (.sk j) s, fun _ _ h _ => busRead_reserved h s, fun _ => perform_read⟩

/-- R64, R65: a write to a read-only register or a reserved offset is ignored. -/
theorem busWrite_ignored {off : Nat} (h10 : off ≠ 0x10) (h14 : off ≠ 0x14) (h18 : off ≠ 0x18) (h1C : off ≠ 0x1C)
    (v : Word) (s : State) : busWrite off v s = s := by
  unfold busWrite
  split
  · next hr => exact absurd (regAt_eq_some hr) h10
  · next hr => exact absurd (regAt_eq_some hr) h14
  · next hr => exact absurd (regAt_eq_some hr) h18
  · next hr => exact absurd (regAt_eq_some hr) h1C
  · rfl

/-- Settles O12: an admitted write is a CMD write or writes the operand half at its offset, if there is one. -/
theorem registerMapWrites : Obligations.RegisterMapWrites := by
  intro s off v h4 hw hb
  have hwrite (hc : off ≠ 0x04) : perform (.write .word off v) s = .next (busWrite off v s) :=
    perform_write h4 hw hc hb
  refine ⟨?_, ?_, ?_, ?_, ?_, fun h10 h14 h18 h1C hc => ?_⟩
  · rintro rfl; exact hwrite (by decide)
  · rintro rfl; exact hwrite (by decide)
  · rintro rfl; exact hwrite (by decide)
  · rintro rfl; exact hwrite (by decide)
  · rintro rfl; exact perform_command hb
  · rw [hwrite hc, busWrite_ignored h10 h14 h18 h1C]

/-! ## STATUS (R246) -/

/-- A field put in a word at bit `n` reads back at that place. -/
theorem extract_placed_self {k n : Nat} (v : BitVec k) (h : n + k ≤ 32) :
    (v.setWidth 32 <<< n).extractLsb' n k = v := by
  ext i hi
  have hlt : n + i < 32 := by omega
  simp [hlt, hi, BitVec.getLsbD_eq_getElem]

/-- A field put in a word at bit `n` leaves the places beside it zero. -/
theorem extract_placed_apart {k n start len : Nat} (v : BitVec k) (h : start + len ≤ n ∨ n + k ≤ start) :
    (v.setWidth 32 <<< n).extractLsb' start len = 0#len := by
  ext i hi
  rcases h with h | h
  · have hlt : start + i < n := by omega
    simp [hlt]
  · have hge : k ≤ start + i - n := by omega
    simp [BitVec.getLsbD_of_ge v _ hge]

theorem statusWord_reset : statusWord State.reset = 0x00000000#32 := rfl

/-- Settles O15: the fields do not overlap, so each place of STATUS holds its own field or none; the example's three
commands meet their checks. -/
theorem statusWordLayout : Obligations.StatusWordLayout := by
  refine ⟨fun s => ?fields, statusWord_reset, _, _, _, exec_keyLoad_eight _, rfl, exec_cfbInit_of_valid rfl rfl,
    SegmentCommand.enc.exec_of_open rfl rfl (by decide) (by decide), rfl⟩
  case fields =>
    simp (disch := decide) only [statusWord, flagAt, nibbleAt, BitVec.extractLsb'_or, extract_placed_self,
      extract_placed_apart, BitVec.or_zero, BitVec.zero_or, and_self]

/-! ## NOP and CLEAR (R242, R243) -/

theorem decode_eq_nop_iff (w : Word) : decode w = .ok .nop ↔ w = 0x00000000#32 := by
  obtain ⟨hnop, -⟩ := opcodeTableMatchesWords w
  exact hnop.trans (Eq.congr_left BitVec.and_allOnes)

theorem decode_eq_clear_iff (w : Word) : decode w = .ok .clear ↔ w = 0x00000007#32 :=
  ⟨Safety.decode_eq_clear, fun h => h ▸ by decide⟩

/-- The row with the OP of NOP or of CLEAR has no free field, and its pattern is the OP alone (R95). -/
theorem opcodeRows_no_free_field {op : BitVec 4} (hop : op = 0#4 ∨ op = 7#4) : ∀ r ∈ opcodeRows,
    r.pattern.extractLsb' 0 4 = op → r.mask = BitVec.allOnes 32 ∧ r.pattern = op.setWidth 32 := by
  rcases hop with rfl | rfl
  · decide
  · decide

/-- A word with the OP of NOP or of CLEAR and any other bit set is no command. -/
theorem writeCommand_of_op_no_free_field {op : BitVec 4} (hop : op = 0#4 ∨ op = 7#4) {w : Word}
    (hw : w.extractLsb' 0 4 = op) (hne : w ≠ op.setWidth 32) (s : State) :
    writeCommand w s = .next { s with cmd := w, errCode := 0x3#4, err := true } := by
  refine writeCommand_of_no_row (fun r hr => Bool.eq_false_of_not_eq_true fun hfits => hne ?_) s
  obtain ⟨hmask, hpattern⟩ := opcodeRows_no_free_field hop r hr ((extract_op_of_fits hr hfits).symm.trans hw)
  have hmasked : w &&& r.mask = r.pattern := OpcodeRow.fits_iff.1 hfits
  rwa [hmask, hpattern, BitVec.and_allOnes] at hmasked

/-- Settles O48: NOP has no check and no effect of its own, so what is left is success. -/
theorem nopResult : Obligations.NopResult :=
  ⟨execNop_eq, decode_eq_nop_iff, fun _ s hw hne => writeCommand_of_op_no_free_field (.inl rfl) hw hne s,
    fun _ => ⟨_, writeCommand_of_decode ((decode_eq_nop_iff _).2 rfl) _, rfl, rfl, rfl⟩⟩

theorem pack32_zeros : pack32 Bytes4.zeros = 0x00000000#32 := by decide

theorem subkey_zeros : ∀ j : Fin 6, subkey SubkeyFile.zeros j = Bytes4.zeros := by decide

theorem readReg_cleared {r : Reg} (h : r ≠ .id) (s : State) : readReg s.cleared r = 0x00000000#32 := by
  cases r with
  | id => exact absurd rfl h
  | cmd => rfl
  | status => exact statusWord_reset
  | sk j => exact (congrArg pack32 (subkey_zeros j)).trans pack32_zeros
  | _ => exact pack32_zeros

theorem busRead_cleared {off : Nat} (h : off ≠ 0x00) (s : State) : busRead off s.cleared = 0x00000000#32 := by
  obtain ⟨r, rfl⟩ | h0 := regOffset_or_busRead_eq_zero off
  · rw [busRead_regOffset]
    exact readReg_cleared (fun hr => h (congrArg regOffset hr)) s
  · exact h0 _

/-- Settles O17: CLEAR and reset are one definition, and the row of CLEAR has no free field. -/
theorem clearEqualsReset : Obligations.ClearEqualsReset :=
  ⟨fun s => ⟨s.cleared, execClear_eq s, rfl, rfl, rfl, rfl, rfl, rfl, rfl, rfl, rfl, rfl, rfl, rfl, rfl, rfl, rfl, rfl,
      rfl, fun _ h => busRead_cleared h s⟩,
    decode_eq_clear_iff, fun _ s hw hne => writeCommand_of_op_no_free_field (.inr rfl) hw hne s⟩

end Sys2Proof.Machine

/-! The statements of 60_exceptions.md: what a failure writes (R270), which check reports (R271), and how long ERR and
ERR_CODE last (R272). -/

namespace Sys2Proof.Machine

/-! ## The error effect (R270) -/

theorem exec_of_errCode_ne_zero {i : Instr} {s t : State} (h : exec i s = .next t) (hc : t.errCode ≠ 0#4) :
    t = { s with errCode := t.errCode, err := true } := by
  obtain ⟨u, hu, hend⟩ := everyCommandSucceedsOrRaises i s
  cases hu.symm.trans h
  rcases hend with ⟨h0, -⟩ | ⟨e, rfl⟩
  · exact absurd h0 hc
  · rfl

theorem writeCommand_of_decode_error {v : Word} {r : IllegalWord} (h : decode v = .error r) (s : State) :
    writeCommand v s = .next ((s.latchCommand v).raise .illegalCommand) := by
  rw [writeCommand, h]

theorem writeCommand_of_errCode_ne_zero {v : Word} {s t : State} (h : writeCommand v s = .next t)
    (hc : t.errCode ≠ 0#4) : t = { s with cmd := v, errCode := t.errCode, err := true } := by
  rcases writeCommand_cases h with ⟨i, -, hx⟩ | ⟨r, -, rfl⟩
  · exact exec_of_errCode_ne_zero hx hc
  · rfl

/-- Settles O50: a command that does not raise an error leaves ERR_CODE 0. -/
theorem failureWritesOnlyTheError : Obligations.FailureWritesOnlyTheError :=
  ⟨fun _ _ _ => exec_of_errCode_ne_zero, fun _ _ _ => writeCommand_of_errCode_ne_zero⟩

/-! ## The first check that fails (R271) -/

/-- The ERR_CODE that a command with these checks leaves: the first failing check's, 0 where none fails. -/
def reportedCode (cs : List (Bool × ErrCode)) : Nibble := (firstFailure cs).elim 0#4 errBits

@[simp] theorem reportedCode_nil : reportedCode [] = 0#4 := rfl

@[simp] theorem reportedCode_cons (b : Bool) (e : ErrCode) (cs : List (Bool × ErrCode)) :
    reportedCode ((b, e) :: cs) = if b = true then errBits e else reportedCode cs := by
  cases b with
  | false => rfl
  | true => rfl

theorem checked_errCode {cs : List (Bool × ErrCode)} {f : State → State} {s t : State}
    (h : checked cs f s = .next t) : t.errCode = reportedCode cs := by
  rcases checked_cases h with ⟨e, he, rfl⟩ | ⟨hn, rfl⟩
  · rw [reportedCode, he]; rfl
  · rw [reportedCode, hn]; rfl

/-- A command that is these checks and an effect completes, and reports as its checks do. -/
theorem exec_reports {i : Instr} {s : State} {cs : List (Bool × ErrCode)} {f : State → State} {c : Nibble}
    (hi : exec i s = checked cs f s) (hc : reportedCode cs = c) : ∃ t, exec i s = .next t ∧ t.errCode = c := by
  obtain ⟨t, ht⟩ := checked_next cs f s
  exact ⟨t, hi.trans ht, (checked_errCode ht).trans hc⟩

theorem exec_keyLoad_eq_checked (len : Nat) (s : State) : exec (.keyLoad len) s =
    checked [(len != 8, .invalidKeyLength)] (fun t => (t.loadSubkeys (keySchedule t.key)).closeSession) s := rfl

theorem exec_cfbInit_eq_checked (bits : Nat) (s : State) : exec (.cfbInit bits) s =
    checked [(!validSeg bits, .invalidSegmentSize), (!s.keyValid, .keyNotLoaded)]
      (fun t => t.openSession t.din (bits / 8)) s := rfl

theorem reportedCode_segmentChecks (n : Nat) (s : State) : reportedCode (segmentChecks n s) =
    if s.cfbActive = false then 0x6#4 else if s.cfbEnded = true then 0x7#4
    else if n < 1 ∨ s.segBytes.toNat < n then 0x4#4 else 0x0#4 := by
  simp [segmentChecks, errBits]

/-- Settles O51: every command but CLEAR is a list of checks and an effect, and the lists stand in R271's order. -/
theorem errorPriority : Obligations.ErrorPriority := by
  refine ⟨fun v s hno => ⟨_, writeCommand_of_no_command hno s, rfl⟩, fun s n => ⟨⟨_, execNop_eq s, rfl⟩,
    ⟨_, execClear_eq s, rfl⟩, ?keyLoad, ?encBlock, ?decBlock, ?cfbInit,
    exec_reports (SegmentCommand.enc.exec_eq_checked s) (reportedCode_segmentChecks n s),
    exec_reports (SegmentCommand.dec.exec_eq_checked s) (reportedCode_segmentChecks n s)⟩,
    fun s _ => ⟨_, exec_cfbInit_of_bad_size (by decide) s, rfl⟩⟩
  case keyLoad => exact exec_reports (exec_keyLoad_eq_checked n s) (by simp [errBits])
  case encBlock => exact exec_reports (exec_encBlock_eq_checked n s) (by simp [errBits])
  case decBlock => exact exec_reports (exec_decBlock_eq_checked n s) (by simp [errBits])
  case cfbInit => exact exec_reports (exec_cfbInit_eq_checked n s) (by simp [errBits])

/-! ## ERR and ERR_CODE over time (R272) -/

theorem exec_keeps_err {i : Instr} {s t : State} (h : exec i s = .next t) (he : s.err = true) :
    t.err = true ∨ i = .clear := by
  obtain ⟨u, hu, hend⟩ := everyCommandSucceedsOrRaises i s
  cases hu.symm.trans h
  rcases hend with ⟨-, hkeep⟩ | ⟨e, rfl⟩
  · exact (eq_or_ne i .clear).symm.imp_left fun hi => (hkeep hi).trans he
  · exact .inl rfl

theorem step_keeps_err {s t : State} (h : step s = .next t) (he : s.err = true) :
    t.err = true ∨ Safety.nextClears s := by
  rcases Safety.step_effects h with ⟨_, _, _, _, _, rfl⟩ | ⟨hc, -⟩ | ⟨u, -, rfl⟩ |
    ⟨i, _, hi, ⟨_, _, _, _, _, rfl⟩, hx⟩
  · exact .inl he
  · exact .inr hc
  · exact .inl rfl
  · refine (exec_keeps_err hx he).imp_right ?_
    rintro rfl
    exact Safety.nextClears_of_nextCommand hi

/-- A checked command overwrites ERR_CODE, so where its effect does not look at the old code, nothing does. -/
theorem checked_withErrCode {cs : List (Bool × ErrCode)} {f : State → State} {s : State} {c : Nibble}
    (hf : (f { s with errCode := c }).succeed = (f s).succeed) :
    checked cs f { s with errCode := c } = checked cs f s := by
  cases hcs : firstFailure cs with
  | none => rw [checked_of_none hcs, checked_of_none hcs, hf]
  | some e =>
    rw [checked_of_some hcs, checked_of_some hcs]
    rfl

theorem exec_withErrCode (i : Instr) (s : State) (c : Nibble) : exec i { s with errCode := c } = exec i s := by
  cases i with
  | nop => rfl
  | clear => rfl
  | keyLoad len =>
    rw [exec_keyLoad_eq_checked, exec_keyLoad_eq_checked]
    exact checked_withErrCode rfl
  | encBlock len =>
    rw [exec_encBlock_eq_checked, exec_encBlock_eq_checked]
    exact checked_withErrCode rfl
  | decBlock len =>
    rw [exec_decBlock_eq_checked, exec_decBlock_eq_checked]
    exact checked_withErrCode rfl
  | cfbInit bits => exact checked_withErrCode rfl
  | cfbEncSeg len => exact checked_withErrCode rfl
  | cfbDecSeg len => exact checked_withErrCode rfl

theorem writeCommand_withErrCode (v : Word) (s : State) (c : Nibble) :
    writeCommand v { s with errCode := c } = writeCommand v s := by
  cases hv : decode v with
  | ok i =>
    rw [writeCommand_of_decode hv, writeCommand_of_decode hv]
    exact exec_withErrCode i (s.latchCommand v) c
  | error r =>
    rw [writeCommand_of_decode_error hv, writeCommand_of_decode_error hv]
    rfl

/-- Settles O52: of the commands only CLEAR clears ERR, and each of them overwrites ERR_CODE without looking at it. -/
theorem errIsSticky : Obligations.ErrIsSticky :=
  ⟨fun _ _ => step_keeps_err, writeCommand_withErrCode⟩

end Sys2Proof.Machine

/-! The statements of 70_reset_and_hazards.md: reset (R290), the accesses of a busy core (R294), and which OPEN latency
each command has (R301). -/

namespace Sys2Proof.Machine

/-! ## Reset (R290) -/

/-- Settles O16: reset leaves `State.cleared`, whose STATUS is that of the reset state; ID is no state element. -/
theorem resetSetsEveryElement : Obligations.ResetSetsEveryElement :=
  ⟨fun s => ⟨s.cleared, rfl, rfl, rfl, rfl, rfl, subkey_zeros, rfl, rfl, rfl, rfl, rfl, rfl, rfl, rfl, rfl,
      busRead_cleared (by decide) s, busRead_regOffset .id s.cleared⟩, rfl⟩

/-! ## A busy core (R294) -/

/-- BUSY stops every well-formed access of the window but a read of STATUS. -/
theorem admitted_busy {off : Nat} {s : State} {go : Result} (h4 : off % 4 = 0) (hw : off < 128)
    (hb : s.busy = true) : admitted .word off false s go = .refused .accessWhileBusy := by
  have hin : ¬ Config.windowBytes ≤ off := Nat.not_le.2 hw
  have hformed : ¬ (AccessWidth.word ≠ .word ∨ off % 4 ≠ 0) := by simp [h4]
  rw [admitted, if_neg hin, if_neg hformed, hb]
  rfl

theorem perform_read_status (s : State) :
    perform (.read .word 0x08) s = .next (s.returnRead (statusWord s)) := by
  have hread : busRead 0x08 s = statusWord s := busRead_regOffset .status s
  rw [← hread]
  exact admitted_of_ok rfl rfl (by decide) fun _ => rfl

theorem perform_read_busy {off : Nat} {s : State} (h4 : off % 4 = 0) (hw : off < 128) (hne : off ≠ 0x08)
    (hb : s.busy = true) : perform (.read .word off) s = .refused .accessWhileBusy := by
  rw [perform, beq_false_of_ne hne]
  exact admitted_busy h4 hw hb

/-- Settles O9: the check of BUSY makes an exception for a read of STATUS, and for no write. -/
theorem busyAdmitsOnlyStatusReads : Obligations.BusyAdmitsOnlyStatusReads := by
  intro s rest hb
  refine ⟨fun hp => ?status, fun off h4 hw hne hp => ?read, fun off v h4 hw hp => ?write⟩
  case status => exact (step_of_pending hp).trans (perform_read_status (s.withPending rest))
  case read => exact (step_of_pending hp).trans (perform_read_busy h4 hw hne hb)
  case write => exact (step_of_pending hp).trans (admitted_busy h4 hw hb)

/-! ## Latencies (R301) -/

theorem commandLatency_of_failure {v : Word} {s t : State} (h : writeCommand v s = .next t) (hc : t.errCode ≠ 0#4) :
    commandLatency v s = Config.latCtrl := by
  rw [commandLatency, h]
  split
  · next hw => cases hw; exact if_neg hc
  · rfl

theorem commandLatency_of_success {v : Word} {i : Instr} {s t : State} (h : writeCommand v s = .next t)
    (hc : t.errCode = 0#4) (hv : decode v = .ok i) : commandLatency v s = latencyOf i := by
  rw [commandLatency, hv, h]
  exact if_pos hc

/-- Settles O60: a CMD write that succeeds has the latency of the command it decodes to. -/
theorem commandLatencies : Obligations.CommandLatencies := by
  intro v s t h
  refine ⟨commandLatency_of_failure h, fun hc n => ?_⟩
  have hlat {i : Instr} (hv : decode v = .ok i) : commandLatency v s = latencyOf i :=
    commandLatency_of_success h hc hv
  refine ⟨hlat, ?block, ?segment, ?control⟩
  case block => rintro (hv | hv) <;> exact hlat hv
  case segment => rintro (hv | hv) <;> exact hlat hv
  case control => rintro (hv | hv | hv) <;> exact hlat hv

end Sys2Proof.Machine
